-- ==== Sys2Proof/Word.lean ====
section
/-!
DEFINITION. The word types of the FVM (spec/00_scope.md R9, R11; spec/30_encoding.md R59).
-/

namespace Sys2Proof

/-- One byte of a stream, a wire format or a buffer (R12). -/
abbrev Byte := BitVec 8

/-- A 16-bit register or field: a CRC or a magic (R7, R21). -/
abbrev Word16 := BitVec 16

/-- A 32-bit register, response or field: a seq, a timeout, an immediate (R22, R59). -/
abbrev Word32 := BitVec 32

/-- One 48-bit command word CW (R59). -/
abbrev CmdWord := BitVec 48

/-- The 12-bit duty of one PWM channel (R7). -/
abbrev Duty := BitVec 12

/-- A byte array of fixed length: PBUF, MBUF and AWIN (R12, R32). -/
abbrev Bytes (n : Nat) := Vector Byte n

end Sys2Proof
end

