-- ==== Sys2Proof/Config.lean ====
section
/-!
DEFINITION. What an implementation fixes and the spec leaves open (spec/00_scope.md R8, spec/10_state.md R34,
spec/92_eei_decisions.md "OPEN parameters"), and the free values. Every constant here is opaque: it has no body,
so nothing proved about the model rests on a value of it.
-/

namespace Sys2Proof.Config

/-- `FRAME_MAGIC_RST`, the reset value of CFG.FRAME_MAGIC (R8, R21; log entry 1). -/
opaque frameMagicRst : Word16

/-- `ACK_MAGIC_RX_RST`, the reset value of CFG.ACK_MAGIC_RX (R8, R21; log entry 1). -/
opaque ackMagicRxRst : Word16

/-- `ACK_MAGIC_TX_RST`, the reset value of CFG.ACK_MAGIC_TX (R8, R21; log entry 1). -/
opaque ackMagicTxRst : Word16

/-- `ACK_TIMEOUT_RST`, the reset value of CFG.AW_TIMEOUT (R8, R21; log entry 1). -/
opaque ackTimeoutRst : Word32

/-- `LED0_BASE`, the register offset of channel 0 of a PWM board, used by the reference expansion of a sink
write alone (R8, R146; log entry 2). -/
opaque led0Base : Byte

/-- The free draws of the PWM sink: the answer (true for ok) to the n-th write that no scripted reply answers
(R144; log entry 3). -/
opaque sinkAnswer : Nat → Bool

/-- The free contents of PBUF after a reset: reset number, then index (R168; log entry 4). -/
opaque pbufDraw : Nat → Nat → Byte

/-- The free contents of MBUF after a reset: reset number, then index (R168; log entry 4). -/
opaque mbufDraw : Nat → Nat → Byte

end Sys2Proof.Config
end

