-- ==== Sys2Proof/Syntax.lean ====
section
/-!
DEFINITION. The commands of the FVM: one constructor of `Instr` per row of spec/opcode_table.json
(spec/30_encoding.md R65, R67), with register indices, halves and slots as names.
-/

namespace Sys2Proof

/-- The configuration registers (spec/10_state.md R21). -/
inductive CfgReg where
  | crcInit | frameMagic | ackMagicRx | ackMagicTx | bank | awTimeout | ctrl
deriving DecidableEq, Repr

/-- Every register `REG_RD` may name: the configuration registers and the read-only ones (R21, R22). -/
inductive Reg where
  | cfg (r : CfgReg)
  | crc
  | frxCnt | fstat | fseq | fmagicRcvd | frxCrc | fcrcRcvd
  | ftxStat | ftxCnt | ftxCrc
  | awStat | awExp | awElapsed | awLimit | awWinLo | awWinHi
  | path
  | atxSeq
  | mrxCnt | mstat | mseq
  | err
deriving DecidableEq, Repr

/-- A payload half, the operand h of `MSG_TX` (R65, R126). -/
inductive Half where
  | half0 | half1
deriving DecidableEq, Repr

/-- A wait slot, the operand of `AW_START` and the value of AW_SLOT (R26, R65). -/
inductive Slot where
  | slot0 | slot1 | slot2
deriving DecidableEq, Repr

/-- The 22 commands (R67). Operands are the unsigned fields of R65, at the field's width. -/
inductive Instr where
  | nop
  | cfgWr (reg : CfgReg) (value : Word32)
  | regRd (reg : Reg)
  | errClr (mask : BitVec 7)
  | crcInit
  | crcByte (b : Byte)
  | frxStart
  | frxByte (b : Byte)
  | pbufRd (idx : BitVec 9)
  | ftxStart (seq : Word32)
  | ftxByte (b : Byte)
  | msgTx (h : Half)
  | ackSeq (seq : Word32)
  | ackTxRaw (status : Byte)
  | ackTxFrame
  | ackTxMsg
  | awStart (slot : Slot) (seq : Word32)
  | awByte (b : Byte)
  | awTick
  | mrxStart
  | mrxByte (b : Byte)
  | map (v : BitVec 4) (g : BitVec 10)
deriving DecidableEq, Repr

end Sys2Proof
end

