-- ==== Sys2Proof/Machine/State.lean ====
section
/-!
DEFINITION. The state of the FVM as plain data: every register, buffer and flag of spec/10_state.md, the output
trace (spec/00_scope.md R12), the inputs the outside world presents, and the state right after reset
(spec/70_reset_and_hazards.md R167, R168).
-/

namespace Sys2Proof.Machine

/-! ### Names for small sets of values -/

/-- AW_STATE (R26): 0 IDLE, 1 WAIT, 2 MATCH, 3 TIMEOUT. -/
inductive AwState where
  | idle | wait | matched | timeout
deriving DecidableEq, Repr

/-- How a wait ends (R113): MATCH = 2 or TIMEOUT = 3. -/
inductive WaitResult where
  | matched | timeout
deriving DecidableEq, Repr

/-- The seven sticky error flags (R30). -/
inductive ErrFlag where
  | illegal | awBusy | awStray | noFrame | noMsg | ftxBusy | ftxIdle
deriving DecidableEq, Repr

/-- The byte ports (R71): 0 FRAME_OUT, 1 MSG0, 2 MSG1, 3 ACK_OUT. -/
inductive Port where
  | frameOut | msg0 | msg1 | ackOut
deriving DecidableEq, Repr

/-- What the PWM sink makes of one write (R144): ok, fail, or no answer ever (R176 point 2). -/
inductive SinkReply where
  | ok | fail | never
deriving DecidableEq, Repr

/-- One event of the output trace (R70). A `pwm` event carries the sink's reply to it. -/
inductive Event where
  | byte  (port : Port) (b : Byte)
  | rsp   (w : Word32)
  | pwm   (bus : BitVec 1) (addr : BitVec 7) (ch : BitVec 4) (duty : Duty) (reply : SinkReply)
  | frame (valid magicErr crcErr : Bool) (seq : Word32)
  | ackw  (slot : Slot) (result : WaitResult) (status : Byte)
  | msg   (nodeOk : Bool) (seq : Word32)
deriving DecidableEq, Repr

/-- What stands on the block's inputs: a whole command word (R60) or the reset input (R167). -/
inductive Input where
  | command (cw : CmdWord)
  | reset
deriving DecidableEq, Repr

/-! ### The units -/

/-- The configuration registers, SEL 0x01 to 0x07 (R21). -/
structure CfgRegs where
  crcInit    : Word16
  frameMagic : Word16
  ackMagicRx : Word16
  ackMagicTx : Word16
  bank       : BitVec 1
  awTimeout  : Word32
  /-- CFG.CTRL: bit 0 is SINK_STOP. -/
  ctrl       : BitVec 1
deriving DecidableEq, Repr

/-- The frame receiver (R24). -/
structure FrameRx where
  cnt       : BitVec 10
  crc       : Word16
  magicRcvd : Word16
  seq       : Word32
  crcRcvd   : Word16
  pbuf      : Bytes 512
  valid     : Bool
  magicErr  : Bool
  crcErr    : Bool
deriving DecidableEq, Repr

/-- The frame transmitter (R25). -/
structure FrameTx where
  active : Bool
  cnt    : BitVec 10
  crc    : Word16
deriving DecidableEq, Repr

/-- The acknowledgement window (R26). -/
structure AckWindow where
  state   : AwState
  slot    : Slot
  n       : BitVec 3
  win     : Bytes 7
  status  : Byte
  exp     : Word32
  elapsed : Word32
  limit   : Word32
deriving DecidableEq, Repr

/-- PATH_OK0 and PATH_OK1 (R27). AGG is not stored. -/
structure PathStatus where
  ok0 : Bool
  ok1 : Bool
deriving DecidableEq, Repr

/-- The message receiver (R29). -/
structure MsgRx where
  cnt    : BitVec 9
  seq    : Word32
  mbuf   : Bytes 256
  nodeOk : Bool
  done   : Bool
deriving DecidableEq, Repr

/-- The PWM sink as the block meets it (R144): replies the outside world has fixed beforehand, oldest first, and
the number of free draws taken after they ran out (log entry 3). -/
structure SinkEnv where
  script : List SinkReply
  draws  : Nat
deriving DecidableEq, Repr

/-- The whole machine. The last four fields are the model's own (log entries 3, 4, 5, 6). -/
structure State where
  cfg    : CfgRegs
  /-- The CRC engine's register (R23). -/
  crc    : Word16
  frx    : FrameRx
  ftx    : FrameTx
  aw     : AckWindow
  path   : PathStatus
  /-- The seq of `ACK_TX_RAW` (R28). -/
  atxSeq : Word32
  mrx    : MsgRx
  /-- ERR[6:0], bit number = cause code (R30). -/
  err    : BitVec 7
  /-- Every event emitted so far, oldest first (R12, R55; log entry 8). -/
  trace  : List Event
  /-- What the outside world has presented and the block has not yet taken, oldest first. -/
  input  : List Input
  /-- The PWM sink's replies to come. -/
  sink   : SinkEnv
  /-- How many reset steps there have been: the number the buffers' free contents are drawn with. -/
  resets : Nat
  /-- The block is inside an `MRX_BYTE` step, at a write the sink does not answer (R144, R176). DEDUCED, unsafe: of the
  inputs only reset ends it (R169; log entry 6). -/
  held   : Bool
deriving DecidableEq, Repr

/-- The faults of the block: none. R154: errors are flags of ERR and no command stops the block; a write that is
never answered is a hold, not a failure (R176). So nothing raises a fault, which is safe (log entry 12). -/
inductive Fault where
deriving DecidableEq, Repr

/-- The refusals of the model. -/
inductive Refusal where
  /-- An instruction that has no meaning yet: raised by an arm of `exec`, and by nothing in this model, since every
  arm has its meaning. Safe: the run stops. -/
  | notModelled (mnemonic : String)
deriving DecidableEq, Repr

/-- What one step or one meaning answers. -/
abbrev Result := Host.Outcome State Fault Refusal

/-! ### Replacing one field -/

/-- Replace the configuration registers. -/
def State.setCfg (s : State) (x : CfgRegs) : State := { s with cfg := x }
/-- Replace the CRC engine's register. -/
def State.setCrc (s : State) (x : Word16) : State := { s with crc := x }
/-- Replace the frame receiver. -/
def State.setFrx (s : State) (x : FrameRx) : State := { s with frx := x }
/-- Replace the frame transmitter. -/
def State.setFtx (s : State) (x : FrameTx) : State := { s with ftx := x }
/-- Replace the acknowledgement window. -/
def State.setAw (s : State) (x : AckWindow) : State := { s with aw := x }
/-- Replace the path flags. -/
def State.setPath (s : State) (x : PathStatus) : State := { s with path := x }
/-- Replace ATXSEQ. -/
def State.setAtxSeq (s : State) (x : Word32) : State := { s with atxSeq := x }
/-- Replace the message receiver. -/
def State.setMrx (s : State) (x : MsgRx) : State := { s with mrx := x }
/-- Replace ERR. -/
def State.setErr (s : State) (x : BitVec 7) : State := { s with err := x }
/-- Replace the trace. -/
def State.setTrace (s : State) (x : List Event) : State := { s with trace := x }
/-- Replace the pending inputs. -/
def State.setInput (s : State) (x : List Input) : State := { s with input := x }
/-- Replace the sink's replies to come. -/
def State.setSink (s : State) (x : SinkEnv) : State := { s with sink := x }
/-- Replace the number of resets. -/
def State.setResets (s : State) (x : Nat) : State := { s with resets := x }
/-- Replace the hold flag. -/
def State.setHeld (s : State) (x : Bool) : State := { s with held := x }

/-! ### Reset values (R21, R22, R167, R168) -/

/-- The configuration registers after reset: 0xFFFF, the four OPEN parameters, and 0 (R21, R167). -/
def CfgRegs.reset : CfgRegs where
  crcInit    := 0xFFFF
  frameMagic := Config.frameMagicRst
  ackMagicRx := Config.ackMagicRxRst
  ackMagicTx := Config.ackMagicTxRst
  bank       := 0
  awTimeout  := Config.ackTimeoutRst
  ctrl       := 0

/-- The frame receiver after the n-th reset: FRX_CRC 0xFFFF, PBUF a draw, the rest 0 (R167, R168). -/
def FrameRx.resetTo (n : Nat) : FrameRx where
  cnt       := 0
  crc       := 0xFFFF
  magicRcvd := 0
  seq       := 0
  crcRcvd   := 0
  pbuf      := Vector.ofFn (fun i => Config.pbufDraw n i)
  valid     := false
  magicErr  := false
  crcErr    := false

/-- The frame transmitter after reset: FTX_CRC 0xFFFF, the rest 0 (R167). -/
def FrameTx.reset : FrameTx where
  active := false
  cnt    := 0
  crc    := 0xFFFF

/-- The acknowledgement window after reset: IDLE and all 0, AWIN too (R167). -/
def AckWindow.reset : AckWindow where
  state   := .idle
  slot    := .slot0
  n       := 0
  win     := Vector.replicate 7 0
  status  := 0
  exp     := 0
  elapsed := 0
  limit   := 0

/-- The message receiver after the n-th reset: MBUF a draw, the rest 0 (R167, R168). -/
def MsgRx.resetTo (n : Nat) : MsgRx where
  cnt    := 0
  seq    := 0
  mbuf   := Vector.ofFn (fun i => Config.mbufDraw n i)
  nodeOk := false
  done   := false

/-- The block after its n-th reset, with nothing emitted, nothing presented and no scripted reply. -/
def State.resetTo (n : Nat) : State where
  cfg    := CfgRegs.reset
  crc    := 0xFFFF
  frx    := FrameRx.resetTo n
  ftx    := FrameTx.reset
  aw     := AckWindow.reset
  path   := ⟨false, false⟩
  atxSeq := 0
  mrx    := MsgRx.resetTo n
  err    := 0
  trace  := []
  input  := []
  sink   := ⟨[], 0⟩
  resets := n
  held   := false

/-- The machine right after reset (R167, R168, R170). -/
def State.reset : State := State.resetTo 0

end Sys2Proof.Machine
end

