-- ==== Sys2Proof/Decode.lean ====
section
/-!
DEFINITION. Command words: the decoder, total on every 48-bit word and on any bytes of a link, rejecting by name;
then the encoder, written from the same table (spec/30_encoding.md R59, R60, R65-R69).
-/

namespace Sys2Proof

/-! ### Register indices and widths (spec/10_state.md R21, R22) -/

/-- The index of a configuration register (R21). -/
def CfgReg.index : CfgReg → Byte
  | .crcInit    => 0x01
  | .frameMagic => 0x02
  | .ackMagicRx => 0x03
  | .ackMagicTx => 0x04
  | .bank       => 0x05
  | .awTimeout  => 0x06
  | .ctrl       => 0x07

/-- The width in bits of a configuration register (R21). -/
def CfgReg.width : CfgReg → Nat
  | .crcInit    => 16
  | .frameMagic => 16
  | .ackMagicRx => 16
  | .ackMagicTx => 16
  | .bank       => 1
  | .awTimeout  => 32
  | .ctrl       => 1

/-- The configuration register an index names, if any (R21). -/
def CfgReg.ofIndex (sel : Byte) : Option CfgReg :=
  match sel.toNat with
  | 0x01 => some .crcInit
  | 0x02 => some .frameMagic
  | 0x03 => some .ackMagicRx
  | 0x04 => some .ackMagicTx
  | 0x05 => some .bank
  | 0x06 => some .awTimeout
  | 0x07 => some .ctrl
  | _    => none

/-- The index of a readable register (R21, R22). -/
def Reg.index : Reg → Byte
  | .cfg r      => r.index
  | .crc        => 0x10
  | .frxCnt     => 0x11
  | .fstat      => 0x12
  | .fseq       => 0x13
  | .fmagicRcvd => 0x14
  | .frxCrc     => 0x15
  | .fcrcRcvd   => 0x16
  | .ftxStat    => 0x18
  | .ftxCnt     => 0x19
  | .ftxCrc     => 0x1A
  | .awStat     => 0x20
  | .awExp      => 0x21
  | .awElapsed  => 0x22
  | .awLimit    => 0x23
  | .awWinLo    => 0x24
  | .awWinHi    => 0x25
  | .path       => 0x26
  | .atxSeq     => 0x28
  | .mrxCnt     => 0x30
  | .mstat      => 0x31
  | .mseq       => 0x32
  | .err        => 0x3F

/-- The readable register an index names, if any: every index outside R21 and R22 is unassigned. -/
def Reg.ofIndex (sel : Byte) : Option Reg :=
  match sel.toNat with
  | 0x10 => some .crc
  | 0x11 => some .frxCnt
  | 0x12 => some .fstat
  | 0x13 => some .fseq
  | 0x14 => some .fmagicRcvd
  | 0x15 => some .frxCrc
  | 0x16 => some .fcrcRcvd
  | 0x18 => some .ftxStat
  | 0x19 => some .ftxCnt
  | 0x1A => some .ftxCrc
  | 0x20 => some .awStat
  | 0x21 => some .awExp
  | 0x22 => some .awElapsed
  | 0x23 => some .awLimit
  | 0x24 => some .awWinLo
  | 0x25 => some .awWinHi
  | 0x26 => some .path
  | 0x28 => some .atxSeq
  | 0x30 => some .mrxCnt
  | 0x31 => some .mstat
  | 0x32 => some .mseq
  | 0x3F => some .err
  | _    => (CfgReg.ofIndex sel).map .cfg

/-! ### Halves and slots in SEL (R65) -/

/-- The selector byte of a half (R65). -/
def Half.sel : Half → Byte
  | .half0 => 0
  | .half1 => 1

/-- The half a selector names, if any (R67). -/
def Half.ofSel (sel : Byte) : Option Half :=
  match sel.toNat with
  | 0 => some .half0
  | 1 => some .half1
  | _ => none

/-- The selector byte of a slot (R65). -/
def Slot.sel : Slot → Byte
  | .slot0 => 0
  | .slot1 => 1
  | .slot2 => 2

/-- The slot a selector names, if any (R67). -/
def Slot.ofSel (sel : Byte) : Option Slot :=
  match sel.toNat with
  | 0 => some .slot0
  | 1 => some .slot1
  | 2 => some .slot2
  | _ => none

/-! ### The decoder -/

/-- Why a word is not a command. Every reason but `partialWord` makes the word illegal (R66). -/
inductive Reject where
  /-- Fewer than six bytes are on the link: no word yet (R60). -/
  | partialWord
  /-- OPC is not assigned (R67, R68). -/
  | unassignedOpcode (opc : Byte)
  /-- SEL is outside the row's set (R67, R68). -/
  | badSelector (mnemonic : String) (sel : Byte)
  /-- A reserved bit of the row is set (R66, R67). -/
  | reservedBits (mnemonic : String)
  /-- The value of a `CFG_WR` does not fit its register (R66). -/
  | valueTooWide (reg : CfgReg) (value : Word32)
deriving DecidableEq, Repr

/-- OPC = CW[47:40] (R59). -/
def opcOf (cw : CmdWord) : Byte := cw.extractLsb' 40 8

/-- SEL = CW[39:32] (R59). -/
def selOf (cw : CmdWord) : Byte := cw.extractLsb' 32 8

/-- IMM = CW[31:0] (R59). -/
def immOf (cw : CmdWord) : Word32 := cw.extractLsb' 0 32

/-- Accept a command when every reserved bit of its row is 0 (R66). -/
def unlessReserved (clear : Bool) (mnemonic : String) (i : Instr) : Except Reject Instr :=
  if clear then .ok i else .error (.reservedBits mnemonic)

/-- A row with no operand: SEL and IMM are reserved (R67). -/
def decodePlain (mnemonic : String) (i : Instr) (sel : Byte) (imm : Word32) : Except Reject Instr :=
  unlessReserved (sel == 0 && imm == 0) mnemonic i

/-- A row whose operand is a field of k bits at the bottom of IMM: SEL and the bits above are reserved (R65, R67). -/
def decodeField (k : Nat) (mnemonic : String) (mk : BitVec k → Instr) (sel : Byte) (imm : Word32) :
    Except Reject Instr :=
  unlessReserved (sel == 0 && decide (imm.toNat < 2 ^ k)) mnemonic (mk (imm.setWidth k))

/-- OPC 0x01: a configuration register, and a value that fits it (R67, R82). -/
def decodeCfgWr (sel : Byte) (imm : Word32) : Except Reject Instr :=
  match CfgReg.ofIndex sel with
  | none => .error (.badSelector "CFG_WR" sel)
  | some r => if imm.toNat < 2 ^ r.width then .ok (.cfgWr r imm) else .error (.valueTooWide r imm)

/-- OPC 0x02: an assigned register index, IMM reserved (R67, R83). -/
def decodeRegRd (sel : Byte) (imm : Word32) : Except Reject Instr :=
  match Reg.ofIndex sel with
  | none => .error (.badSelector "REG_RD" sel)
  | some r => unlessReserved (imm == 0) "REG_RD" (.regRd r)

/-- OPC 0x20: half 0 or 1, IMM reserved (R67, R125). -/
def decodeMsgTx (sel : Byte) (imm : Word32) : Except Reject Instr :=
  match Half.ofSel sel with
  | none => .error (.badSelector "MSG_TX" sel)
  | some h => unlessReserved (imm == 0) "MSG_TX" (.msgTx h)

/-- OPC 0x29: SEL picks the acknowledgement's source, 0 RAW, 1 FRAME, 2 MSG (R65, R67). -/
def decodeAckTx (sel : Byte) (imm : Word32) : Except Reject Instr :=
  match sel.toNat with
  | 0 => unlessReserved (decide (imm.toNat < 2 ^ 8)) "ACK_TX_RAW" (.ackTxRaw (imm.setWidth 8))
  | 1 => unlessReserved (imm == 0) "ACK_TX_FRAME" .ackTxFrame
  | 2 => unlessReserved (imm == 0) "ACK_TX_MSG" .ackTxMsg
  | _ => .error (.badSelector "ACK_TX" sel)

/-- OPC 0x30: slot 0, 1 or 2, and any seq (R67, R114). -/
def decodeAwStart (sel : Byte) (imm : Word32) : Except Reject Instr :=
  match Slot.ofSel sel with
  | none => .error (.badSelector "AW_START" sel)
  | some slot => .ok (.awStart slot imm)

/-- OPC 0x48: v in IMM[3:0], g in IMM[13:4], the rest reserved (R67, R135). -/
def decodeMap (sel : Byte) (imm : Word32) : Except Reject Instr :=
  unlessReserved (sel == 0 && decide (imm.toNat < 2 ^ 14)) "MAP"
    (.map (imm.extractLsb' 0 4) (imm.extractLsb' 4 10))

/-- The opcode map (R67): split the word by R59 and look up OPC. -/
def decodeFields (opc sel : Byte) (imm : Word32) : Except Reject Instr :=
  match opc.toNat with
  | 0x00 => decodePlain "NOP" .nop sel imm
  | 0x01 => decodeCfgWr sel imm
  | 0x02 => decodeRegRd sel imm
  | 0x03 => decodeField 7 "ERR_CLR" .errClr sel imm
  | 0x08 => decodePlain "CRC_INIT" .crcInit sel imm
  | 0x09 => decodeField 8 "CRC_BYTE" .crcByte sel imm
  | 0x10 => decodePlain "FRX_START" .frxStart sel imm
  | 0x11 => decodeField 8 "FRX_BYTE" .frxByte sel imm
  | 0x12 => decodeField 9 "PBUF_RD" .pbufRd sel imm
  | 0x18 => decodeField 32 "FTX_START" .ftxStart sel imm
  | 0x19 => decodeField 8 "FTX_BYTE" .ftxByte sel imm
  | 0x20 => decodeMsgTx sel imm
  | 0x28 => decodeField 32 "ACK_SEQ" .ackSeq sel imm
  | 0x29 => decodeAckTx sel imm
  | 0x30 => decodeAwStart sel imm
  | 0x31 => decodeField 8 "AW_BYTE" .awByte sel imm
  | 0x32 => decodePlain "AW_TICK" .awTick sel imm
  | 0x40 => decodePlain "MRX_START" .mrxStart sel imm
  | 0x41 => decodeField 8 "MRX_BYTE" .mrxByte sel imm
  | 0x48 => decodeMap sel imm
  | _    => .error (.unassignedOpcode opc)

/-- The command a word stands for, or why it is illegal (R66, R69). -/
def decode (cw : CmdWord) : Except Reject Instr :=
  decodeFields (opcOf cw) (selOf cw) (immOf cw)

/-! ### Words as bytes of a link (R60) -/

/-- The six bytes of a word on a byte link, `le_6(CW)` (R60). -/
def bytesOfWord (cw : CmdWord) : List Byte :=
  (List.range 6).map (fun k => cw.extractLsb' (8 * k) 8)

/-- The word six bytes spell, least significant byte first (R60). -/
def wordOfBytes (b0 b1 b2 b3 b4 b5 : Byte) : CmdWord :=
  b5 ++ b4 ++ b3 ++ b2 ++ b1 ++ b0

/-- One command off a byte link, with the bytes after it. Fewer than six bytes are a partial word (R60). -/
def decodeBytes : List Byte → Except Reject (Instr × List Byte)
  | b0 :: b1 :: b2 :: b3 :: b4 :: b5 :: rest =>
    match decode (wordOfBytes b0 b1 b2 b3 b4 b5) with
    | .ok i => .ok (i, rest)
    | .error e => .error e
  | _ => .error .partialWord

/-- The word a table row's bits spell: the low `nbits` bits of `w`, 0 above (bit 0 least significant, R59). -/
def tableWord (nbits w : Nat) : CmdWord := BitVec.ofNat 48 (w % 2 ^ nbits)

/-- The instruction this decoder reads from the word `w` of `nbits` bits, laid out as a byte link carries it. -/
def decodeTableWord (nbits w : Nat) : Option Instr :=
  match decodeBytes (bytesOfWord (tableWord nbits w)) with
  | .ok (i, _) => some i
  | .error _ => none

/-! ### The encoder (R59, R67, R72) -/

/-- OPC, SEL and IMM in one word (R59). -/
def mkWord (opc sel : Byte) (imm : Word32) : CmdWord := opc ++ sel ++ imm

/-- The word of a well-formed command (R67, R72). -/
def encode : Instr → CmdWord
  | .nop           => mkWord 0x00 0 0
  | .cfgWr r value => mkWord 0x01 r.index value
  | .regRd r       => mkWord 0x02 r.index 0
  | .errClr mask   => mkWord 0x03 0 (mask.setWidth 32)
  | .crcInit       => mkWord 0x08 0 0
  | .crcByte b     => mkWord 0x09 0 (b.setWidth 32)
  | .frxStart      => mkWord 0x10 0 0
  | .frxByte b     => mkWord 0x11 0 (b.setWidth 32)
  | .pbufRd idx    => mkWord 0x12 0 (idx.setWidth 32)
  | .ftxStart seq  => mkWord 0x18 0 seq
  | .ftxByte b     => mkWord 0x19 0 (b.setWidth 32)
  | .msgTx h       => mkWord 0x20 h.sel 0
  | .ackSeq seq    => mkWord 0x28 0 seq
  | .ackTxRaw st   => mkWord 0x29 0 (st.setWidth 32)
  | .ackTxFrame    => mkWord 0x29 1 0
  | .ackTxMsg      => mkWord 0x29 2 0
  | .awStart k seq => mkWord 0x30 k.sel seq
  | .awByte b      => mkWord 0x31 0 (b.setWidth 32)
  | .awTick        => mkWord 0x32 0 0
  | .mrxStart      => mkWord 0x40 0 0
  | .mrxByte b     => mkWord 0x41 0 (b.setWidth 32)
  | .map v g       => mkWord 0x48 0 (g.setWidth 32 <<< 4 ||| v.setWidth 32)

end Sys2Proof
end

