-- ==== Sys2Proof/WellFormed.lean ====
section
/-!
DEFINITION. Well-formed commands: the terms of `Instr` that a legal word stands for (spec/30_encoding.md R66).
The operand types already keep every selector and field inside its set; what is left is the value of `CFG_WR`.
-/

namespace Sys2Proof

/-- A value fits its configuration register: `value < 2^w` (R66, R82). -/
abbrev CfgReg.Fits (r : CfgReg) (value : Word32) : Prop := value.toNat < 2 ^ r.width

/-- The command is one that a legal word stands for (R66). -/
def Instr.wellFormed : Instr → Bool
  | .nop           => true
  | .cfgWr r value => decide (r.Fits value)
  | .regRd _       => true
  | .errClr _      => true
  | .crcInit       => true
  | .crcByte _     => true
  | .frxStart      => true
  | .frxByte _     => true
  | .pbufRd _      => true
  | .ftxStart _    => true
  | .ftxByte _     => true
  | .msgTx _       => true
  | .ackSeq _      => true
  | .ackTxRaw _    => true
  | .ackTxFrame    => true
  | .ackTxMsg      => true
  | .awStart _ _   => true
  | .awByte _      => true
  | .awTick        => true
  | .mrxStart      => true
  | .mrxByte _     => true
  | .map _ _       => true

/-- `Instr.wellFormed` as a decidable proposition. -/
abbrev Instr.WellFormed (i : Instr) : Prop := i.wellFormed = true

end Sys2Proof
end

