-- ==== Sys2Proof/Machine/Operands.lean ====
section
/-!
DEFINITION. Operand forms: byte sequences (spec/00_scope.md R11, spec/20_memory.md R45), byte assembly of a field
(R48), halves (spec/43_relay.md R126), nibbles (spec/44_mapper.md R131) and configuration registers by name
(spec/10_state.md R20, R21).
-/

namespace Sys2Proof.Machine

/-! ### Little-endian byte sequences (R11, R45) -/

/-- `le_N(v)`: N bytes, least significant first (R11). -/
def leBytes (n : Nat) {w : Nat} (v : BitVec w) : List Byte :=
  (List.range n).map (fun k => v.extractLsb' (8 * k) 8)

/-- `from_le(bs)`, the sum of `bs[k] * 256^k` (R11). -/
def fromLe : List Byte → Nat
  | [] => 0
  | b :: bs => b.toNat + 256 * fromLe bs

/-- `v[8j+7:8j] <- b`: replace one byte of a field (R93, R140). -/
def setByte {w : Nat} (v : BitVec w) (j : Nat) (b : Byte) : BitVec w :=
  (v &&& ~~~((0xFF : BitVec w) <<< (8 * j))) ||| (b.setWidth w <<< (8 * j))

/-! ### Halves and nibbles -/

/-- The first payload byte of a half: 0 or 256 (R126). -/
def halfOffset : Half → Nat
  | .half0 => 0
  | .half1 => 256

/-- The port a half leaves on: MSG0 or MSG1 (R71, R126). -/
def halfPort : Half → Port
  | .half0 => .msg0
  | .half1 => .msg1

/-- `PBUF[256h .. 256h+255]` (R125). -/
def halfSlice (h : Half) (pbuf : Bytes 512) : List Byte :=
  (pbuf.toList.drop (halfOffset h)).take 256

/-- `val(i)`: the low nibble of byte i/2 for an even i, the high nibble for an odd i (R64, R131). The index i has
nine bits, so i/2 is below 256. -/
def magnetValue (mbuf : Bytes 256) (i : BitVec 9) : BitVec 4 :=
  let b := mbuf[i.toNat / 2]'(by have := i.isLt; omega)
  if i.toNat % 2 = 0 then b.extractLsb' 0 4 else b.extractLsb' 4 4

/-- The bank of a system-wide magnet index, `g[9]` (R135). -/
def bankOf (g : BitVec 10) : BitVec 1 := g.extractLsb' 9 1

/-- The index within the bank, `g[8:0]` (R135). -/
def localIndex (g : BitVec 10) : BitVec 9 := g.extractLsb' 0 9

/-! ### Configuration registers by name (R20, R21) -/

/-- The value of a configuration register; the bits above its width read as 0 (R21). -/
def CfgRegs.get (c : CfgRegs) : CfgReg → Word32
  | .crcInit    => c.crcInit.setWidth 32
  | .frameMagic => c.frameMagic.setWidth 32
  | .ackMagicRx => c.ackMagicRx.setWidth 32
  | .ackMagicTx => c.ackMagicTx.setWidth 32
  | .bank       => c.bank.setWidth 32
  | .awTimeout  => c.awTimeout
  | .ctrl       => c.ctrl.setWidth 32

/-- `CFG[reg] <- value`, for a value that fits (R82). -/
def CfgRegs.put (c : CfgRegs) (r : CfgReg) (value : Word32) : CfgRegs :=
  match r with
  | .crcInit    => { c with crcInit := value.setWidth 16 }
  | .frameMagic => { c with frameMagic := value.setWidth 16 }
  | .ackMagicRx => { c with ackMagicRx := value.setWidth 16 }
  | .ackMagicTx => { c with ackMagicTx := value.setWidth 16 }
  | .bank       => { c with bank := value.setWidth 1 }
  | .awTimeout  => { c with awTimeout := value }
  | .ctrl       => { c with ctrl := value.setWidth 1 }

/-- CFG.CTRL.SINK_STOP (R21). -/
def CfgRegs.sinkStop (c : CfgRegs) : Bool := c.ctrl.getLsbD 0

end Sys2Proof.Machine
end

