-- ==== Sys2Proof/Machine/Flags.lean ====
section
/-!
DEFINITION. Every flag computation and status packing: the frame verdict (spec/41_framecodec.md R93), path and
aggregate status (spec/42_ackchannel.md R113, spec/43_relay.md R127), ERR (spec/10_state.md R30) and the words
`REG_RD` shows (R22).
-/

namespace Sys2Proof.Machine

/-- A flag as a bit of a 32-bit word. -/
def bit32 (f : Bool) : Word32 := (BitVec.ofBool f).setWidth 32

/-- A status as an acknowledgement's status byte: 0 fail, 1 ok (R63). -/
def statusByte (ok : Bool) : Byte := if ok then 1 else 0

/-! ### ERR (R30) -/

/-- The cause code of a flag: its bit number in ERR (R30, R151). -/
def ErrFlag.code : ErrFlag → Nat
  | .illegal => 0
  | .awBusy  => 1
  | .awStray => 2
  | .noFrame => 3
  | .noMsg   => 4
  | .ftxBusy => 5
  | .ftxIdle => 6

/-- ERR with one flag set (R152). -/
def errWith (err : BitVec 7) (f : ErrFlag) : BitVec 7 := err ||| (1 <<< f.code)

/-- `ERR & ~mask` (R84). -/
def errCleared (err mask : BitVec 7) : BitVec 7 := err &&& ~~~mask

/-! ### Verdicts and path status -/

/-- The decision at byte 519: both checks computed, VALID when both pass (R93). -/
def verdict (cfg : CfgRegs) (f : FrameRx) : FrameRx :=
  let magicErr := f.magicRcvd != cfg.frameMagic
  let crcErr := f.crc != f.crcRcvd
  { f with magicErr := magicErr, crcErr := crcErr, valid := !magicErr && !crcErr }

/-- A finished wait counts as success only as MATCH with status exactly 0x01 (R113). -/
def waitOk (r : WaitResult) (status : Byte) : Bool := r == .matched && status == 0x01

/-- The path flags after a wait in a slot; slot 2 records no path (R113). -/
def PathStatus.record (p : PathStatus) (slot : Slot) (ok : Bool) : PathStatus :=
  match slot with
  | .slot0 => { p with ok0 := ok }
  | .slot1 => { p with ok1 := ok }
  | .slot2 => p

/-- AGG = PATH_OK0 & PATH_OK1 (R127). -/
def PathStatus.agg (p : PathStatus) : Bool := p.ok0 && p.ok1

/-! ### Status words (R22) -/

/-- AW_STATE as its 2-bit code (R26). -/
def AwState.code : AwState → BitVec 2
  | .idle    => 0
  | .wait    => 1
  | .matched => 2
  | .timeout => 3

/-- AW_SLOT as its 2-bit code (R26). -/
def slotCode : Slot → BitVec 2
  | .slot0 => 0
  | .slot1 => 1
  | .slot2 => 2

/-- The AW_STATE a wait's end leaves (R113). -/
def WaitResult.state : WaitResult → AwState
  | .matched => .matched
  | .timeout => .timeout

/-- FSTAT: VALID [0], MAGIC_ERR [1], CRC_ERR [2]. -/
def fstatWord (f : FrameRx) : Word32 :=
  bit32 f.valid ||| bit32 f.magicErr <<< 1 ||| bit32 f.crcErr <<< 2

/-- AW_STAT: STATE [1:0], SLOT [3:2], N [6:4], STATUS [15:8]. -/
def awStatWord (a : AckWindow) : Word32 :=
  a.state.code.setWidth 32 ||| (slotCode a.slot).setWidth 32 <<< 2 ||| a.n.setWidth 32 <<< 4
    ||| a.status.setWidth 32 <<< 8

/-- AW_WIN_LO: AWIN[0] to AWIN[3], AWIN[0] lowest. -/
def awWinLo (a : AckWindow) : Word32 :=
  a.win[0].setWidth 32 ||| a.win[1].setWidth 32 <<< 8 ||| a.win[2].setWidth 32 <<< 16 ||| a.win[3].setWidth 32 <<< 24

/-- AW_WIN_HI: AWIN[4] to AWIN[6], AWIN[4] lowest. -/
def awWinHi (a : AckWindow) : Word32 :=
  a.win[4].setWidth 32 ||| a.win[5].setWidth 32 <<< 8 ||| a.win[6].setWidth 32 <<< 16

/-- PATH: PATH_OK0 [0], PATH_OK1 [1], AGG [2]. -/
def pathWord (p : PathStatus) : Word32 :=
  bit32 p.ok0 ||| bit32 p.ok1 <<< 1 ||| bit32 p.agg <<< 2

/-- MSTAT: NODE_OK [0], MDONE [1]. -/
def mstatWord (m : MsgRx) : Word32 :=
  bit32 m.nodeOk ||| bit32 m.done <<< 1

end Sys2Proof.Machine
end

