-- ==== Sys2Proof/Machine/Ops.lean ====
section
/-!
DEFINITION. The shared operations: the output primitives and `raise Err` (spec/00_scope.md R12), reading a register
(spec/10_state.md R21, R22), one write to the PWM sink (spec/44_mapper.md R144), the end of a wait
(spec/42_ackchannel.md R113) and the reset step (spec/70_reset_and_hazards.md R167-R169). The block takes no
exceptions (spec/60_exceptions.md R154): `State.raise` is all an error does.
-/

namespace Sys2Proof.Machine

/-! ### Output (R12, R70) -/

/-- Append one event to the trace. -/
def State.event (s : State) (e : Event) : State := s.setTrace (s.trace ++ [e])

/-- `Emit(port, bs)`: one `byte` event per byte, in order. -/
def State.emit (s : State) (p : Port) (bs : List Byte) : State := s.setTrace (s.trace ++ bs.map (Event.byte p))

/-- `Rsp(w)`: one response word. -/
def State.respond (s : State) (w : Word32) : State := s.event (.rsp w)

/-! ### Errors (R12, R152) -/

/-- `raise Err(NAME)`: set the flag, and nothing else (R152). -/
def State.raise (s : State) (f : ErrFlag) : State := s.setErr (errWith s.err f)

/-! ### Registers (R21, R22) -/

/-- The 32-bit value `REG_RD` shows of a register: zero-extended, in the packing of R22. -/
def State.readReg (s : State) : Reg → Word32
  | .cfg r      => s.cfg.get r
  | .crc        => s.crc.setWidth 32
  | .frxCnt     => s.frx.cnt.setWidth 32
  | .fstat      => fstatWord s.frx
  | .fseq       => s.frx.seq
  | .fmagicRcvd => s.frx.magicRcvd.setWidth 32
  | .frxCrc     => s.frx.crc.setWidth 32
  | .fcrcRcvd   => s.frx.crcRcvd.setWidth 32
  | .ftxStat    => bit32 s.ftx.active
  | .ftxCnt     => s.ftx.cnt.setWidth 32
  | .ftxCrc     => s.ftx.crc.setWidth 32
  | .awStat     => awStatWord s.aw
  | .awExp      => s.aw.exp
  | .awElapsed  => s.aw.elapsed
  | .awLimit    => s.aw.limit
  | .awWinLo    => awWinLo s.aw
  | .awWinHi    => awWinHi s.aw
  | .path       => pathWord s.path
  | .atxSeq     => s.atxSeq
  | .mrxCnt     => s.mrx.cnt.setWidth 32
  | .mstat      => mstatWord s.mrx
  | .mseq       => s.mrx.seq
  | .err        => s.err.setWidth 32

/-! ### The PWM sink (R144) -/

/-- One channel write as the mapper asks for it (R141). -/
structure ChannelWrite where
  addr : BitVec 7
  ch   : BitVec 4
  duty : Duty
deriving DecidableEq, Repr

/-- The reply to the next write: the oldest scripted one, else a free draw (R144; log entry 3). -/
def SinkEnv.reply (k : SinkEnv) : SinkReply :=
  match k.script with
  | r :: _ => r
  | [] => if Config.sinkAnswer k.draws then .ok else .fail

/-- The sink after one write: the scripted reply is used up, or the draw is counted. -/
def SinkEnv.advance (k : SinkEnv) : SinkEnv :=
  match k.script with
  | _ :: rest => { k with script := rest }
  | [] => { k with draws := k.draws + 1 }

/-- `ok <- Pwm(bus, addr, ch, duty); if ok == 0 then NODE_OK <- 0` (R141, R144). A write that is never answered
holds the block (R176). -/
def State.pwm (s : State) (w : ChannelWrite) : State :=
  let r := s.sink.reply
  ((s.event (.pwm s.cfg.bank w.addr w.ch w.duty r)).setSink s.sink.advance).setMrx
      { s.mrx with nodeOk := s.mrx.nodeOk && r != .fail }
    |>.setHeld (r == .never)

/-! ### The end of a wait (R113) -/

/-- `finish(result, status)`. -/
def State.finishWait (s : State) (r : WaitResult) (status : Byte) : State :=
  ((s.setAw { s.aw with state := r.state, status := status }).setPath
      (s.path.record s.aw.slot (waitOk r status))).event (.ackw s.aw.slot r status)

/-! ### Reset (R167-R169) -/

/-- The reset step: every register at its reset value, the buffers drawn afresh, no event; what was emitted stays in
the trace, and the outside world (inputs and sink) is untouched (DESIGN CHOICE, safe; log entries 4 and 13). -/
def State.resetStep (s : State) : State :=
  { State.resetTo (s.resets + 1) with trace := s.trace, input := s.input, sink := s.sink }

end Sys2Proof.Machine
end

