-- ==== Sys2Proof/Machine/AckChannel.lean ====
section
/-!
DEFINITION. The acknowledgement channel (spec/42_ackchannel.md R108-R117): the builder and the resync window.
-/

namespace Sys2Proof.Machine

/-! ### The builder (R108-R112) -/

/-- `makeAck(seq, status)`, with CFG.ACK_MAGIC_TX (R108). -/
def makeAck (cfg : CfgRegs) (seq : Word32) (status : Byte) : List Byte :=
  leBytes 2 cfg.ackMagicTx ++ leBytes 4 seq ++ [status]

/-- `ACK_SEQ seq` (R109). -/
def execAckSeq (seq : Word32) (s : State) : Host.Outcome State Fault Refusal :=
  .next (s.setAtxSeq seq)

/-- `ACK_TX_FRAME` (R110). -/
def execAckTxFrame (s : State) : Host.Outcome State Fault Refusal :=
  .next (if !s.frx.valid then s.raise .noFrame
    else s.emit .ackOut (makeAck s.cfg s.frx.seq (statusByte s.path.agg)))

/-- `ACK_TX_MSG` (R111). -/
def execAckTxMsg (s : State) : Host.Outcome State Fault Refusal :=
  .next (if !s.mrx.done then s.raise .noMsg
    else s.emit .ackOut (makeAck s.cfg s.mrx.seq (statusByte s.mrx.nodeOk)))

/-- `ACK_TX_RAW status` (R112). -/
def execAckTxRaw (status : Byte) (s : State) : Host.Outcome State Fault Refusal :=
  .next (s.emit .ackOut (makeAck s.cfg s.atxSeq status))

/-! ### The window (R113-R117) -/

/-- `AW_START slot, seq` (R114). -/
def execAwStart (slot : Slot) (seq : Word32) (s : State) : Host.Outcome State Fault Refusal :=
  let armed := s.setAw
    { s.aw with slot := slot, exp := seq, n := 0, elapsed := 0, limit := s.cfg.awTimeout, status := 0 }
  .next (if s.aw.state = .wait then s.raise .awBusy
    else if s.cfg.awTimeout = 0 then armed.finishWait .timeout 0
    else armed.setAw { armed.aw with state := .wait })

/-- The window spells the accepted magic and the expected seq (R116). -/
def windowMatches (cfg : CfgRegs) (a : AckWindow) : Bool :=
  a.win[0] == cfg.ackMagicRx.extractLsb' 0 8 && a.win[1] == cfg.ackMagicRx.extractLsb' 8 8 &&
    fromLe [a.win[2], a.win[3], a.win[4], a.win[5]] == a.exp.toNat

/-- `AWIN[0..5] <- AWIN[1..6]`, AWIN[6] kept (R116). -/
def slideWindow (w : Bytes 7) : Bytes 7 := #v[w[1], w[2], w[3], w[4], w[5], w[6], w[6]]

/-- `check()` (R116). -/
def State.checkWindow (s : State) : State :=
  if windowMatches s.cfg s.aw then s.finishWait .matched s.aw.win[6]
  else s.setAw { s.aw with win := slideWindow s.aw.win, n := 6 }

/-- `AW_BYTE b` (R115). -/
def execAwByte (b : Byte) (s : State) : Host.Outcome State Fault Refusal :=
  let filled := s.setAw { s.aw with win := s.aw.win.setIfInBounds s.aw.n.toNat b, n := s.aw.n + 1 }
  .next (if s.aw.state ≠ .wait then s.raise .awStray
    else if filled.aw.n = 7 then filled.checkWindow
    else filled)

/-- `AW_TICK` (R117). -/
def execAwTick (s : State) : Host.Outcome State Fault Refusal :=
  let ticked := s.setAw { s.aw with elapsed := s.aw.elapsed + 1 }
  .next (if s.aw.state ≠ .wait then s
    else if ticked.aw.limit ≤ ticked.aw.elapsed then ticked.finishWait .timeout 0
    else ticked)

end Sys2Proof.Machine
end

