-- ==== Sys2Proof/Machine/Control.lean ====
section
/-!
DEFINITION. Control commands (spec/40_control.md R81-R84).
-/

namespace Sys2Proof.Machine

/-- `NOP` (R81). -/
def execNop (s : State) : Host.Outcome State Fault Refusal := .next s

/-- `CFG_WR reg, value` (R82). A value that does not fit is illegal (R66): no legal word stands for that term
(DESIGN CHOICE, safe; log entry 9). -/
def execCfgWr (r : CfgReg) (value : Word32) (s : State) : Host.Outcome State Fault Refusal :=
  .next (if r.Fits value then s.setCfg (s.cfg.put r value) else s.raise .illegal)

/-- `REG_RD reg` (R83). -/
def execRegRd (r : Reg) (s : State) : Host.Outcome State Fault Refusal :=
  .next (s.respond (s.readReg r))

/-- `ERR_CLR mask` (R84). -/
def execErrClr (mask : BitVec 7) (s : State) : Host.Outcome State Fault Refusal :=
  .next (s.setErr (errCleared s.err mask))

end Sys2Proof.Machine
end

