-- ==== Sys2Proof/Machine/FrameCodec.lean ====
section
/-!
DEFINITION. The frame codec (spec/41_framecodec.md R89-R98): CRC arithmetic, the CRC engine, the frame receiver and
validator, the frame transmitter, and the reference encoder.
-/

namespace Sys2Proof.Machine

/-! ### CRC arithmetic (R89) -/

/-- One round: shift left, and XOR the polynomial 0x1021 if bit 15 was set. -/
def crcRound (r : Word16) : Word16 :=
  if r.getLsbD 15 then (r <<< 1) ^^^ 0x1021 else r <<< 1

/-- n rounds. -/
def crcRounds : Nat → Word16 → Word16
  | 0, r => r
  | n + 1, r => crcRounds n (crcRound r)

/-- `upd(reg, b)`: XOR the byte into the high byte, then 8 rounds. -/
def crcUpdate (reg : Word16) (b : Byte) : Word16 :=
  crcRounds 8 (reg ^^^ (b.setWidth 16 <<< 8))

/-- `crc(init, bs)`: fold `upd` over the bytes. -/
def crcOf (init : Word16) (bs : List Byte) : Word16 := bs.foldl crcUpdate init

/-! ### The CRC engine (R90, R91) -/

/-- `CRC_INIT` (R90). -/
def execCrcInit (s : State) : Host.Outcome State Fault Refusal :=
  .next (s.setCrc s.cfg.crcInit)

/-- `CRC_BYTE b` (R91). -/
def execCrcByte (b : Byte) (s : State) : Host.Outcome State Fault Refusal :=
  .next (s.setCrc (crcUpdate s.crc b))

/-! ### The frame receiver (R92-R95) -/

/-- `FRX_START` (R92). -/
def execFrxStart (s : State) : Host.Outcome State Fault Refusal :=
  .next (s.setFrx { s.frx with cnt := 0 })

/-- What byte k of a frame does to the receiver's fields, the counter apart (R93). No run has k above 519 (R35; log
entry 10). -/
def frxStore (cfg : CfgRegs) (k : Nat) (b : Byte) (f : FrameRx) : FrameRx :=
  if k = 0 then
    { f with valid := false, crc := crcUpdate cfg.crcInit b, magicRcvd := b.setWidth 16 }
  else if k = 1 then
    { f with crc := crcUpdate f.crc b, magicRcvd := setByte f.magicRcvd 1 b }
  else if k ≤ 5 then
    { f with crc := crcUpdate f.crc b, seq := if k = 2 then b.setWidth 32 else setByte f.seq (k - 2) b }
  else if k ≤ 517 then
    { f with crc := crcUpdate f.crc b, pbuf := f.pbuf.setIfInBounds (k - 6) b }
  else if k = 518 then
    { f with crcRcvd := b.setWidth 16 }
  else
    verdict cfg { f with crcRcvd := setByte f.crcRcvd 1 b }

/-- `FRX_BYTE b` (R93). -/
def execFrxByte (b : Byte) (s : State) : Host.Outcome State Fault Refusal :=
  let k := s.frx.cnt.toNat
  let f := frxStore s.cfg k b s.frx
  let s1 := (s.setFrx { f with cnt := if k = 519 then 0 else s.frx.cnt + 1 }).setPath
    (if k = 0 then ⟨false, false⟩ else s.path)
  .next (if k ≤ 518 then s1 else s1.event (.frame f.valid f.magicErr f.crcErr f.seq))

/-- `PBUF_RD idx` (R95). -/
def execPbufRd (idx : BitVec 9) (s : State) : Host.Outcome State Fault Refusal :=
  .next (s.respond ((s.frx.pbuf[idx.toNat]'idx.isLt).setWidth 32))

/-! ### The frame transmitter (R96-R98) -/

/-- The header of a frame, `le_2(magic) ‖ le_4(seq)` (R96, R97). -/
def frameHeader (cfg : CfgRegs) (seq : Word32) : List Byte :=
  leBytes 2 cfg.frameMagic ++ leBytes 4 seq

/-- The reference encoder `encode(seq, p)` (R96). -/
def frameBytes (cfg : CfgRegs) (seq : Word32) (p : List Byte) : List Byte :=
  frameHeader cfg seq ++ p ++ leBytes 2 (crcOf cfg.crcInit (frameHeader cfg seq ++ p))

/-- `FTX_START seq` (R97). -/
def execFtxStart (seq : Word32) (s : State) : Host.Outcome State Fault Refusal :=
  .next (if s.ftx.active then s.raise .ftxBusy
    else (s.emit .frameOut (frameHeader s.cfg seq)).setFtx
      { active := true, cnt := 0, crc := crcOf s.cfg.crcInit (frameHeader s.cfg seq) })

/-- `FTX_BYTE b` (R98). -/
def execFtxByte (b : Byte) (s : State) : Host.Outcome State Fault Refusal :=
  let c := crcUpdate s.ftx.crc b
  .next (if !s.ftx.active then s.raise .ftxIdle
    else if s.ftx.cnt = 511 then
      ((s.emit .frameOut [b]).emit .frameOut (leBytes 2 c)).setFtx { active := false, cnt := 0, crc := c }
    else (s.emit .frameOut [b]).setFtx { active := true, cnt := s.ftx.cnt + 1, crc := c })

end Sys2Proof.Machine
end

