-- ==== Sys2Proof/Machine/Mapper.lean ====
section
/-!
DEFINITION. The magnet mapper, the board router and the message receiver (spec/44_mapper.md R131-R146).
-/

namespace Sys2Proof.Machine

/-! ### Pure functions (R132, R133, R146) -/

/-- `map(v) -> (left, right)` (R132). -/
def mapDuty (v : BitVec 4) : Duty × Duty :=
  if v = 15 then (0, 0)
  else
    let intensity : Int := (v.toNat : Int) - 7
    let duty : Duty := BitVec.ofNat 12 (585 * intensity.natAbs)
    if 0 < intensity then (duty, 0) else if intensity < 0 then (0, duty) else (0, 0)

/-- A board address and the channel pair of one magnet (R133). -/
structure Route where
  addr  : BitVec 7
  left  : BitVec 4
  right : BitVec 4
deriving DecidableEq, Repr

/-- `route(i)`: board i/8 at 0x40 + board, channels 2m and 2m+1 for m = i % 8 (R133). -/
def route (i : BitVec 9) : Route where
  addr  := BitVec.ofNat 7 (0x40 + i.toNat / 8)
  left  := BitVec.ofNat 4 (2 * (i.toNat % 8))
  right := BitVec.ofNat 4 (2 * (i.toNat % 8) + 1)

/-- A channel write as the external sink expands it: a register offset and the four bytes ON_L, ON_H, OFF_L, OFF_H
(R146). -/
def boardWrite (ch : BitVec 4) (duty : Duty) : Nat × List Byte :=
  (Config.led0Base.toNat + 4 * ch.toNat, [0, 0, duty.extractLsb' 0 8, (duty.extractLsb' 8 4).setWidth 8])

/-! ### `MAP` (R135) -/

/-- The response of `MAP`: L [11:0], R [23:12], address [30:24], bus [31] (R135). -/
def mapWord (v : BitVec 4) (g : BitVec 10) : Word32 :=
  (mapDuty v).1.setWidth 32 ||| (mapDuty v).2.setWidth 32 <<< 12 ||| (route (localIndex g)).addr.setWidth 32 <<< 24
    ||| (bankOf g).setWidth 32 <<< 31

/-- `MAP v, g` (R135). -/
def execMap (v : BitVec 4) (g : BitVec 10) (s : State) : Host.Outcome State Fault Refusal :=
  .next (s.respond (mapWord v g))

/-! ### The message receiver (R139-R143) -/

/-- `MRX_START` (R139). -/
def execMrxStart (s : State) : Host.Outcome State Fault Refusal :=
  .next (s.setMrx { s.mrx with cnt := 0 })

/-- The two writes of magnet i: the left channel, then the right (R141). -/
def magnetWrites (mbuf : Bytes 256) (i : BitVec 9) : List ChannelWrite :=
  let d := mapDuty (magnetValue mbuf i)
  let r := route i
  [⟨r.addr, r.left, d.1⟩, ⟨r.addr, r.right, d.2⟩]

/-- Every write a message asks for, magnets in ascending index (R141, R142). -/
def messageWrites (mbuf : Bytes 256) : List ChannelWrite :=
  (List.range 512).flatMap (fun i => magnetWrites mbuf (BitVec.ofNat 9 i))

/-- One turn of `apply()`'s loop: skipped after a failure when SINK_STOP is set (R141), and nothing more is issued
once a write is never answered (R144; DEDUCED, unsafe; log entry 6). -/
def State.issueWrite (s : State) (w : ChannelWrite) : State :=
  if s.held then s
  else if s.cfg.sinkStop && !s.mrx.nodeOk then s
  else s.pwm w

/-- `apply()` (R141). -/
def State.applyMessage (s : State) : State :=
  (messageWrites s.mrx.mbuf).foldl State.issueWrite s

/-- The rest of the step after `apply()`: not reached while a write is unanswered (R140, R144). -/
def State.finishMessage (s : State) : State :=
  if s.held then s
  else (s.setMrx { s.mrx with done := true, cnt := 0 }).event (.msg s.mrx.nodeOk s.mrx.seq)

/-- What byte k of a message does to the receiver's fields, the counter apart (R140). No run has k above 259 (R35; log
entry 10). -/
def mrxStore (k : Nat) (b : Byte) (m : MsgRx) : MsgRx :=
  if k = 0 then { m with nodeOk := true, done := false, seq := b.setWidth 32 }
  else if k ≤ 3 then { m with seq := setByte m.seq k b }
  else { m with mbuf := m.mbuf.setIfInBounds (k - 4) b }

/-- `MRX_BYTE b` (R140). -/
def execMrxByte (b : Byte) (s : State) : Host.Outcome State Fault Refusal :=
  let k := s.mrx.cnt.toNat
  let m := mrxStore k b s.mrx
  .next (if k = 259 then (s.setMrx m).applyMessage.finishMessage
    else s.setMrx { m with cnt := s.mrx.cnt + 1 })

end Sys2Proof.Machine
end

