-- ==== Sys2Proof/Machine/Relay.lean ====
section
/-!
DEFINITION. The relay message emitter (spec/43_relay.md R125, R126).
-/

namespace Sys2Proof.Machine

/-- `le_4(FSEQ) ‖ PBUF[256h .. 256h+255]`: the relay message of a half (R62, R125). -/
def relayMessage (f : FrameRx) (h : Half) : List Byte := leBytes 4 f.seq ++ halfSlice h f.pbuf

/-- `MSG_TX h` (R125). -/
def execMsgTx (h : Half) (s : State) : Host.Outcome State Fault Refusal :=
  .next (if !s.frx.valid then s.raise .noFrame else s.emit (halfPort h) (relayMessage s.frx h))

end Sys2Proof.Machine
end

