-- ==== Sys2Proof/Machine/Dispatch.lean ====
section
/-!
DEFINITION. The dispatch of a command to its meaning: one arm per constructor of `Instr` (spec/30_encoding.md R67).
-/

namespace Sys2Proof.Machine

def exec (i : Instr) (s : State) : Host.Outcome State Fault Refusal :=
  match i with
  -- Control (spec/40_control.md)
  | .nop => Sys2Proof.Machine.execNop s
  | .cfgWr reg value => Sys2Proof.Machine.execCfgWr reg value s
  | .regRd reg => Sys2Proof.Machine.execRegRd reg s
  | .errClr mask => Sys2Proof.Machine.execErrClr mask s
  -- Frame codec (spec/41_framecodec.md)
  | .crcInit => Sys2Proof.Machine.execCrcInit s
  | .crcByte b => Sys2Proof.Machine.execCrcByte b s
  | .frxStart => Sys2Proof.Machine.execFrxStart s
  | .frxByte b => Sys2Proof.Machine.execFrxByte b s
  | .pbufRd idx => Sys2Proof.Machine.execPbufRd idx s
  | .ftxStart seq => Sys2Proof.Machine.execFtxStart seq s
  | .ftxByte b => Sys2Proof.Machine.execFtxByte b s
  -- Relay (spec/43_relay.md)
  | .msgTx h => Sys2Proof.Machine.execMsgTx h s
  -- Acknowledgement channel (spec/42_ackchannel.md)
  | .ackSeq seq => Sys2Proof.Machine.execAckSeq seq s
  | .ackTxRaw status => Sys2Proof.Machine.execAckTxRaw status s
  | .ackTxFrame => Sys2Proof.Machine.execAckTxFrame s
  | .ackTxMsg => Sys2Proof.Machine.execAckTxMsg s
  | .awStart slot seq => Sys2Proof.Machine.execAwStart slot seq s
  | .awByte b => Sys2Proof.Machine.execAwByte b s
  | .awTick => Sys2Proof.Machine.execAwTick s
  -- Mapper and actuator node (spec/44_mapper.md)
  | .mrxStart => Sys2Proof.Machine.execMrxStart s
  | .mrxByte b => Sys2Proof.Machine.execMrxByte b s
  | .map v g => Sys2Proof.Machine.execMap v g s

end Sys2Proof.Machine
end

