-- ==== Sys2Proof/Machine/Command.lean ====
section
/-!
DEFINITION. What the block does with what stands on its inputs: a command word is checked for legality first
(spec/30_encoding.md R66, spec/60_exceptions.md R153) and then run; the reset input is a step of its own
(spec/70_reset_and_hazards.md R167).
-/

namespace Sys2Proof.Machine

/-- One command word: run the command it stands for, or set ERR.ILLEGAL and do nothing else (R66). -/
def runWord (cw : CmdWord) (s : State) : Result :=
  match decode cw with
  | .ok i => exec i s
  | .error _ => .next (s.raise .illegal)

/-- One input. -/
def runInput (x : Input) (s : State) : Result :=
  match x with
  | .command cw => runWord cw s
  | .reset => .next s.resetStep

/-- The inputs without their first reset, if there is one. Reset is an input line of its own, so the words that wait
in front of it do not keep it from the block and stay presented (R60, R167; DESIGN CHOICE, safe; log entry 13). -/
def takeReset : List Input → Option (List Input)
  | [] => none
  | .reset :: rest => some rest
  | .command cw :: rest => (takeReset rest).map (.command cw :: ·)

/-- Take the oldest input and run it (R54). With none presented the block waits (R60, R176). A block held by an
unanswered write takes no word; reset alone ends the hold, abandoning the message (R144, R169, R176; DEDUCED, unsafe;
log entry 6). -/
def takeInput (s : State) : Result :=
  if s.held then
    match takeReset s.input with
    | some rest => runInput .reset (s.setInput rest)
    | none => .next s
  else
    match s.input with
    | [] => .next s
    | x :: rest => runInput x (s.setInput rest)

/-- Present a word as the very next input of a block that is between steps. -/
def State.present (s : State) (cw : CmdWord) : State :=
  (s.setInput (.command cw :: s.input)).setHeld false

/-- A list of commands run one after the other, each to completion (R54). -/
def execAll : List Instr → State → Result
  | [], s => .next s
  | i :: is, s =>
    match exec i s with
    | .next t => execAll is t
    | .fault r => .fault r
    | .refused r => .refused r

end Sys2Proof.Machine
end

