-- ==== Sys2Proof/Machine/Step.lean ====
section
/-!
DEFINITION. One step of the block: one input, taken to completion (spec/00_scope.md R13, spec/20_memory.md R54).
-/

namespace Sys2Proof.Machine

/-- One step. -/
def step (s : State) : Host.Outcome State Fault Refusal := takeInput s

/-- The state with the word `w` of `nbits` bits presented as the next command: the block fetches nothing (R19), so
placing a program is presenting its words (log entry 5). -/
def State.withFetchWord (s : State) (nbits w : Nat) : State := s.present (tableWord nbits w)

end Sys2Proof.Machine
end

