-- ==== Sys2Proof/Machine/Assembler.lean ====
section
/-!
DEFINITION. The pseudo-instructions and their expansions (spec/30_encoding.md R73), and a command's mnemonic
(R67, R72).
-/

namespace Sys2Proof.Machine

/-- The mnemonic of a command (R67). -/
def mnemonic : Instr → String
  | .nop         => "NOP"
  | .cfgWr _ _   => "CFG_WR"
  | .regRd _     => "REG_RD"
  | .errClr _    => "ERR_CLR"
  | .crcInit     => "CRC_INIT"
  | .crcByte _   => "CRC_BYTE"
  | .frxStart    => "FRX_START"
  | .frxByte _   => "FRX_BYTE"
  | .pbufRd _    => "PBUF_RD"
  | .ftxStart _  => "FTX_START"
  | .ftxByte _   => "FTX_BYTE"
  | .msgTx _     => "MSG_TX"
  | .ackSeq _    => "ACK_SEQ"
  | .ackTxRaw _  => "ACK_TX_RAW"
  | .ackTxFrame  => "ACK_TX_FRAME"
  | .ackTxMsg    => "ACK_TX_MSG"
  | .awStart _ _ => "AW_START"
  | .awByte _    => "AW_BYTE"
  | .awTick      => "AW_TICK"
  | .mrxStart    => "MRX_START"
  | .mrxByte _   => "MRX_BYTE"
  | .map _ _     => "MAP"

/-- The operands of a command in the order of R72, as numbers; `MAP v, g` has v first. -/
def operands : Instr → List Nat
  | .nop           => []
  | .cfgWr r value => [r.index.toNat, value.toNat]
  | .regRd r       => [r.index.toNat]
  | .errClr mask   => [mask.toNat]
  | .crcInit       => []
  | .crcByte b     => [b.toNat]
  | .frxStart      => []
  | .frxByte b     => [b.toNat]
  | .pbufRd idx    => [idx.toNat]
  | .ftxStart seq  => [seq.toNat]
  | .ftxByte b     => [b.toNat]
  | .msgTx h       => [h.sel.toNat]
  | .ackSeq seq    => [seq.toNat]
  | .ackTxRaw st   => [st.toNat]
  | .ackTxFrame    => []
  | .ackTxMsg      => []
  | .awStart k seq => [k.sel.toNat, seq.toNat]
  | .awByte b      => [b.toNat]
  | .awTick        => []
  | .mrxStart      => []
  | .mrxByte b     => [b.toNat]
  | .map v g       => [v.toNat, g.toNat]

/-- One line of assembly: the mnemonic, then the operands in decimal, separated by commas (R72; DESIGN CHOICE, safe; log
entry 15). -/
def assemblyLine (i : Instr) : String :=
  match operands i with
  | [] => mnemonic i
  | x :: xs => mnemonic i ++ " " ++ xs.foldl (fun acc n => acc ++ ", " ++ Nat.repr n) (Nat.repr x)

/-! ### Pseudo-instructions (R73) -/

/-- `CRC_BYTES b0, ..., bn`. -/
def crcBytes (bs : List Byte) : List Instr := bs.map .crcByte

/-- `FRX_BYTES b0, ..., bn`. -/
def frxBytes (bs : List Byte) : List Instr := bs.map .frxByte

/-- `AW_BYTES b0, ..., bn`. -/
def awBytes (bs : List Byte) : List Instr := bs.map .awByte

/-- `MRX_BYTES b0, ..., bn`. -/
def mrxBytes (bs : List Byte) : List Instr := bs.map .mrxByte

/-- `FTX_FRAME seq, p0, ..., p511`. -/
def ftxFrame (seq : Word32) (p : List Byte) : List Instr := .ftxStart seq :: p.map .ftxByte

/-- `REP n, cmd`. -/
def rep (n : Nat) (i : Instr) : List Instr := List.replicate n i

/-- `TICKS n`: none if n = 0. -/
def ticks (n : Nat) : List Instr := rep n .awTick

/-- `FRX_FRAME magic, seq, p0..p511, crc`. -/
def frxFrame (magic : Word16) (seq : Word32) (p : List Byte) (crc : Word16) : List Instr :=
  frxBytes (leBytes 2 magic ++ leBytes 4 seq ++ p ++ leBytes 2 crc)

/-- The seven bytes of an acknowledgement (R63). -/
def ackBytes (magic : Word16) (seq : Word32) (status : Byte) : List Byte :=
  leBytes 2 magic ++ leBytes 4 seq ++ [status]

/-- `AW_ACK magic, seq, status`. -/
def awAck (magic : Word16) (seq : Word32) (status : Byte) : List Instr :=
  awBytes (ackBytes magic seq status)

end Sys2Proof.Machine
end

