-- ==== Sys2Proof/Safety.lean ====
section
/-!
DEFINITION. The terms claims are stated in: what a step leaves alone, the invariants of a sound run, and the spec's
tables and formulas written a second time, independently of the machine (the opcode map of spec/30_encoding.md R67, the
reset column and packings of spec/10_state.md R21 and R22, the ERR table of R30, the duty formula of
spec/44_mapper.md R132).
-/

namespace Sys2Proof.Machine

/-! ### What an effect leaves alone -/

/-- Every register `REG_RD` can show reads the same, except the listed ones. -/
def RegsKept (changed : List Reg) (s t : State) : Prop :=
  ∀ r, r ∉ changed → t.readReg r = s.readReg r

/-- PBUF and MBUF hold the same bytes. -/
def BuffersKept (s t : State) : Prop :=
  t.frx.pbuf = s.frx.pbuf ∧ t.mrx.mbuf = s.mrx.mbuf

/-- The pending inputs, the sink and the model's own fields are the same. -/
def OutsideKept (s t : State) : Prop :=
  t.input = s.input ∧ t.sink = s.sink ∧ t.resets = s.resets ∧ t.held = s.held

/-- The events appended are exactly these, in this order. -/
def Emits (es : List Event) (s t : State) : Prop := t.trace = s.trace ++ es

/-- At most the listed registers change, exactly the listed events are appended, and nothing else happens. -/
def Effect (changed : List Reg) (es : List Event) (s t : State) : Prop :=
  RegsKept changed s t ∧ BuffersKept s t ∧ OutsideKept s t ∧ Emits es s t

/-! ### Invariants -/

/-- The ranges of R35. -/
structure State.InRange (s : State) : Prop where
  frxCnt   : s.frx.cnt.toNat ≤ 519
  mrxCnt   : s.mrx.cnt.toNat ≤ 259
  ftxIdle  : s.ftx.active = false → s.ftx.cnt = 0
  ftxCnt   : s.ftx.cnt.toNat ≤ 511
  waiting  : s.aw.state = .wait →
    s.aw.n.toNat ≤ 6 ∧ 1 ≤ s.aw.limit.toNat ∧ s.aw.elapsed.toNat < s.aw.limit.toNat
  matched  : s.aw.state = .matched → s.aw.n = 7
  slot     : (slotCode s.aw.slot).toNat ≤ 2
  errBits  : (s.readReg .err).toNat < 2 ^ 7

/-- The first 518 bytes of the frame in the receiver's fields: magic, seq and payload (R61). -/
def heldBytes (f : FrameRx) : List Byte :=
  leBytes 2 f.magicRcvd ++ leBytes 4 f.seq ++ f.pbuf.toList

/-- The frame in progress, or the last one, was begun under the initial value `init` and its verdict was reached under
the magic `magic`. FRX_CRC is the CRC, from `init`, of the bytes received so far; and VALID = 1 means that no frame is in
progress, neither check failed, and FMAGIC_RCVD, FSEQ and PBUF hold a frame of that magic whose CRC from `init` is both
FRX_CRC and FCRC_RCVD (R24, R93). -/
structure State.FrameSound (init magic : Word16) (s : State) : Prop where
  running : 1 ≤ s.frx.cnt.toNat → s.frx.crc = crcOf init ((heldBytes s.frx).take s.frx.cnt.toNat)
  valid   : s.frx.valid = true →
    s.frx.cnt = 0 ∧ s.frx.magicErr = false ∧ s.frx.crcErr = false ∧ s.frx.magicRcvd = magic ∧
      s.frx.crc = crcOf init (heldBytes s.frx) ∧ s.frx.crcRcvd = s.frx.crc

/-- The next step runs an `FRX_BYTE`. -/
def State.frxByteNext (s : State) : Bool :=
  match s.held, s.input with
  | false, .command cw :: _ =>
    match decode cw with
    | .ok (.frxByte _) => true
    | _ => false
  | _, _ => false

/-- The initial value of the frame in progress after the next step: CFG.CRC_INIT, read at byte 0 and kept after it
(R93). -/
def State.frameInit (s : State) (init : Word16) : Word16 :=
  if s.frxByteNext = true ∧ s.frx.cnt = 0 then s.cfg.crcInit else init

/-- The magic of the last verdict after the next step: CFG.FRAME_MAGIC, read at byte 519 and kept after it (R93). -/
def State.verdictMagic (s : State) (magic : Word16) : Word16 :=
  if s.frxByteNext = true ∧ s.frx.cnt = 519 then s.cfg.frameMagic else magic

/-- MDONE = 1 means that no message is in progress; NODE_OK is 1 while one is being received; a hold is at byte 259
of a message that is not done (R29, R140, R144). -/
structure State.MessageSound (s : State) : Prop where
  done    : s.mrx.done = true → s.mrx.cnt = 0
  running : s.mrx.cnt ≠ 0 → s.held = false → s.mrx.nodeOk = true
  held    : s.held = true → s.mrx.cnt = 259 ∧ s.mrx.done = false

/-! ### The opcode map, a second time (R67) -/

/-- A row of R67: the opcode, the selectors allowed, and the reserved bits of IMM. -/
structure MapRow where
  opc      : Byte
  sels     : List Byte
  reserved : Word32

/-- The opcode map of R67, in its order; `CFG_WR` has one row per register width (R21). -/
def opcodeMap : List MapRow :=
  [⟨0x00, [0], 0xFFFFFFFF⟩,
   ⟨0x01, [0x01, 0x02, 0x03, 0x04], 0xFFFF0000⟩,
   ⟨0x01, [0x05, 0x07], 0xFFFFFFFE⟩,
   ⟨0x01, [0x06], 0x00000000⟩,
   ⟨0x02, [0x01, 0x02, 0x03, 0x04, 0x05, 0x06, 0x07, 0x10, 0x11, 0x12, 0x13, 0x14, 0x15, 0x16, 0x18, 0x19, 0x1A,
           0x20, 0x21, 0x22, 0x23, 0x24, 0x25, 0x26, 0x28, 0x30, 0x31, 0x32, 0x3F], 0xFFFFFFFF⟩,
   ⟨0x03, [0], 0xFFFFFF80⟩,
   ⟨0x08, [0], 0xFFFFFFFF⟩,
   ⟨0x09, [0], 0xFFFFFF00⟩] ++
  [⟨0x10, [0], 0xFFFFFFFF⟩,
   ⟨0x11, [0], 0xFFFFFF00⟩,
   ⟨0x12, [0], 0xFFFFFE00⟩,
   ⟨0x18, [0], 0x00000000⟩,
   ⟨0x19, [0], 0xFFFFFF00⟩,
   ⟨0x20, [0, 1], 0xFFFFFFFF⟩,
   ⟨0x28, [0], 0x00000000⟩,
   ⟨0x29, [0], 0xFFFFFF00⟩,
   ⟨0x29, [1], 0xFFFFFFFF⟩,
   ⟨0x29, [2], 0xFFFFFFFF⟩] ++
  [⟨0x30, [0, 1, 2], 0x00000000⟩,
   ⟨0x31, [0], 0xFFFFFF00⟩,
   ⟨0x32, [0], 0xFFFFFFFF⟩,
   ⟨0x40, [0], 0xFFFFFFFF⟩,
   ⟨0x41, [0], 0xFFFFFF00⟩,
   ⟨0x48, [0], 0xFFFFC000⟩]

/-- The word meets some row: its opcode, one of its selectors, and every reserved bit 0 (R66). -/
def Legal (cw : CmdWord) : Prop :=
  ∃ row ∈ opcodeMap, opcOf cw = row.opc ∧ selOf cw ∈ row.sels ∧ immOf cw &&& row.reserved = 0

/-- The three fields of a command's word, OPC, SEL and IMM, as numbers (R65, R67). -/
def fieldsOf : Instr → Nat × Nat × Nat
  | .nop           => (0x00, 0, 0)
  | .cfgWr r value => (0x01, r.index.toNat, value.toNat)
  | .regRd r       => (0x02, r.index.toNat, 0)
  | .errClr mask   => (0x03, 0, mask.toNat)
  | .crcInit       => (0x08, 0, 0)
  | .crcByte b     => (0x09, 0, b.toNat)
  | .frxStart      => (0x10, 0, 0)
  | .frxByte b     => (0x11, 0, b.toNat)
  | .pbufRd idx    => (0x12, 0, idx.toNat)
  | .ftxStart seq  => (0x18, 0, seq.toNat)
  | .ftxByte b     => (0x19, 0, b.toNat)
  | .msgTx h       => (0x20, match h with | .half0 => 0 | .half1 => 1, 0)
  | .ackSeq seq    => (0x28, 0, seq.toNat)
  | .ackTxRaw st   => (0x29, 0, st.toNat)
  | .ackTxFrame    => (0x29, 1, 0)
  | .ackTxMsg      => (0x29, 2, 0)
  | .awStart k seq => (0x30, match k with | .slot0 => 0 | .slot1 => 1 | .slot2 => 2, seq.toNat)
  | .awByte b      => (0x31, 0, b.toNat)
  | .awTick        => (0x32, 0, 0)
  | .mrxStart      => (0x40, 0, 0)
  | .mrxByte b     => (0x41, 0, b.toNat)
  | .map v g       => (0x48, 0, 16 * g.toNat + v.toNat)

/-- The "Encoding" and ILLEGAL lines of the rules of one opcode: a word with the fields of a well-formed command is that
command, and any other word of the opcode sets ERR.ILLEGAL and does nothing else (R66, R67). -/
def WordsOf (opc : Byte) : Prop :=
  ∀ cw : CmdWord, opcOf cw = opc →
    (∀ i : Instr, i.WellFormed → fieldsOf i = (opc.toNat, (selOf cw).toNat, (immOf cw).toNat) → decode cw = .ok i) ∧
    ((∀ i : Instr, i.WellFormed → fieldsOf i ≠ (opc.toNat, (selOf cw).toNat, (immOf cw).toNat)) →
      ∀ s : State, ∃ t, runWord cw s = .next t ∧ (t.readReg .err).toNat = s.err.toNat ||| 1 ∧ Effect [.err] [] s t)

/-! ### Registers, a second time (R21, R22, R30) -/

/-- The reset value of a register (the "reset value" columns of R21 and R22; R167). -/
def resetValue : Reg → Word32
  | .cfg .crcInit    => 0xFFFF
  | .cfg .frameMagic => Config.frameMagicRst.setWidth 32
  | .cfg .ackMagicRx => Config.ackMagicRxRst.setWidth 32
  | .cfg .ackMagicTx => Config.ackMagicTxRst.setWidth 32
  | .cfg .awTimeout  => Config.ackTimeoutRst
  | .crc    => 0xFFFF
  | .frxCrc => 0xFFFF
  | .ftxCrc => 0xFFFF
  | .cfg .bank | .cfg .ctrl | .frxCnt | .fstat | .fseq | .fmagicRcvd | .fcrcRcvd | .ftxStat | .ftxCnt | .awStat
  | .awExp | .awElapsed | .awLimit | .awWinLo | .awWinHi | .path | .atxSeq | .mrxCnt | .mstat | .mseq | .err => 0

/-- A register's value as the sum of its fields (R21, R22). -/
def regSum (s : State) : Reg → Nat
  | .cfg .crcInit    => s.cfg.crcInit.toNat
  | .cfg .frameMagic => s.cfg.frameMagic.toNat
  | .cfg .ackMagicRx => s.cfg.ackMagicRx.toNat
  | .cfg .ackMagicTx => s.cfg.ackMagicTx.toNat
  | .cfg .bank       => s.cfg.bank.toNat
  | .cfg .awTimeout  => s.cfg.awTimeout.toNat
  | .cfg .ctrl       => s.cfg.ctrl.toNat
  | .crc        => s.crc.toNat
  | .frxCnt     => s.frx.cnt.toNat
  | .fstat      => s.frx.valid.toNat + 2 * s.frx.magicErr.toNat + 4 * s.frx.crcErr.toNat
  | .fseq       => s.frx.seq.toNat
  | .fmagicRcvd => s.frx.magicRcvd.toNat
  | .frxCrc     => s.frx.crc.toNat
  | .fcrcRcvd   => s.frx.crcRcvd.toNat
  | .ftxStat    => s.ftx.active.toNat
  | .ftxCnt     => s.ftx.cnt.toNat
  | .ftxCrc     => s.ftx.crc.toNat
  | .awStat     => s.aw.state.code.toNat + 4 * (slotCode s.aw.slot).toNat + 16 * s.aw.n.toNat + 256 * s.aw.status.toNat
  | .awExp      => s.aw.exp.toNat
  | .awElapsed  => s.aw.elapsed.toNat
  | .awLimit    => s.aw.limit.toNat
  | .awWinLo    => fromLe [s.aw.win[0], s.aw.win[1], s.aw.win[2], s.aw.win[3]]
  | .awWinHi    => fromLe [s.aw.win[4], s.aw.win[5], s.aw.win[6]]
  | .path       => s.path.ok0.toNat + 2 * s.path.ok1.toNat + 4 * (s.path.ok0 && s.path.ok1).toNat
  | .atxSeq     => s.atxSeq.toNat
  | .mrxCnt     => s.mrx.cnt.toNat
  | .mstat      => s.mrx.nodeOk.toNat + 2 * s.mrx.done.toNat
  | .mseq       => s.mrx.seq.toNat
  | .err        => s.err.toNat

/-- The flag a command raises in a state, if any (the ERR table of R30, without ILLEGAL). -/
def raisedBy (s : State) : Instr → Option ErrFlag
  | .awStart _ _ => if s.aw.state = .wait then some .awBusy else none
  | .awByte _    => if s.aw.state = .wait then none else some .awStray
  | .msgTx _     => if s.frx.valid then none else some .noFrame
  | .ackTxFrame  => if s.frx.valid then none else some .noFrame
  | .ackTxMsg    => if s.mrx.done then none else some .noMsg
  | .ftxStart _  => if s.ftx.active then some .ftxBusy else none
  | .ftxByte _   => if s.ftx.active then none else some .ftxIdle
  | .nop | .cfgWr _ _ | .regRd _ | .errClr _ | .crcInit | .crcByte _ | .frxStart | .frxByte _ | .pbufRd _
  | .ackSeq _ | .ackTxRaw _ | .awTick | .mrxStart | .mrxByte _ | .map _ _ => none

/-! ### Arithmetic, a second time -/

/-- The CRC one message bit at a time, most significant bit of each byte first: shift left, and XOR 0x1021 when the bit
shifted out differs from the message bit. -/
def crcBit (r : Word16) (d : Bool) : Word16 :=
  if (r.getLsbD 15 ^^ d) then (r <<< 1) ^^^ 0x1021 else r <<< 1

/-- The bits of a byte, most significant first. -/
def bitsOf (b : Byte) : List Bool := (List.range 8).map (fun k => b.getLsbD (7 - k))

/-- The left duty of a magnet value, `floor((v - 7) * 4095 / 7)` above 7, off at 15 (R132). -/
def leftDuty (v : BitVec 4) : Nat := if 7 < v.toNat ∧ v.toNat < 15 then (v.toNat - 7) * 4095 / 7 else 0

/-- The right duty of a magnet value, `floor((7 - v) * 4095 / 7)` below 7 (R132). -/
def rightDuty (v : BitVec 4) : Nat := if v.toNat < 7 then (7 - v.toNat) * 4095 / 7 else 0

/-- An acknowledgement byte by byte (R63, R108). -/
def ackEvents (magic : Word16) (seq : Word32) (status : Byte) : List Event :=
  [.byte .ackOut (magic.extractLsb' 0 8), .byte .ackOut (magic.extractLsb' 8 8),
   .byte .ackOut (seq.extractLsb' 0 8), .byte .ackOut (seq.extractLsb' 8 8),
   .byte .ackOut (seq.extractLsb' 16 8), .byte .ackOut (seq.extractLsb' 24 8), .byte .ackOut status]

/-! ### The sink's replies ahead of time (R144) -/

/-- The reply the n-th write from here will get: scripted while the script lasts, then a free draw. -/
def SinkEnv.replyAt (k : SinkEnv) (n : Nat) : SinkReply :=
  if h : n < k.script.length then k.script[n]
  else if Config.sinkAnswer (k.draws + (n - k.script.length)) then .ok else .fail

/-- The sink after n writes. -/
def SinkEnv.after (k : SinkEnv) (n : Nat) : SinkEnv :=
  ⟨k.script.drop n, k.draws + (n - k.script.length)⟩

/-- The events of the first n writes of a message, each with the reply it gets (R70, R141). -/
def writeEvents (bus : BitVec 1) (mbuf : Bytes 256) (k : SinkEnv) (n : Nat) : List Event :=
  ((messageWrites mbuf).take n).mapIdx (fun i w => .pwm bus w.addr w.ch w.duty (k.replyAt i))

end Sys2Proof.Machine
end

