-- ==== Sys2Proof/Certificates/Slice0/Obligations.lean ====
section
/-!
DEFINITION. The statements for the provers, one `def Obligations.<Name> : Prop` each, in the order of
OBLIGATIONS.json. Each docstring names the rule of spec/ the statement formalises. `WordsOf` in a statement about a
command is the "Encoding" line and the ILLEGAL line of its rule.
-/

open Sys2Proof Sys2Proof.Machine

/-! ### Encoding -/

/-- Decoding the word of a well-formed command gives that command back, every operand at every value (R59, R67). -/
def Obligations.DecodeOfEncodeIsIdentity : Prop :=
  ∀ i : Instr, i.WellFormed → decode (encode i) = .ok i

/-- A word that decodes is the word of the well-formed command it decodes to: one meaning, no bit dropped (R66, R69). -/
def Obligations.EncodeOfDecodeIsIdentity : Prop :=
  ∀ (cw : CmdWord) (i : Instr), decode cw = .ok i → encode i = cw ∧ i.WellFormed

/-- R66: a word decodes exactly when it meets a row of the opcode map; any other word, taken from the input, sets
ERR.ILLEGAL and has no other effect. -/
def Obligations.IllegalWordOnlySetsIllegal : Prop :=
  ∀ cw : CmdWord,
    ((∃ i, decode cw = .ok i) ↔ Legal cw) ∧
    ∀ (s : State) (rest : List Input), s.held = false → s.input = .command cw :: rest → ¬ Legal cw →
      ∃ t, step s = .next t ∧ (t.readReg .err).toNat = s.err.toNat ||| 1 ∧ Effect [.err] [] (s.setInput rest) t

/-- R74: the worked encodings decode to the commands they stand for. -/
def Obligations.WorkedEncodingsDecode : Prop :=
  decode 0x090000000031 = .ok (.crcByte 0x31) ∧
  decode 0x0106000003E8 = .ok (.cfgWr .awTimeout 1000) ∧
  decode 0x300112345678 = .ok (.awStart .slot1 0x12345678) ∧
  decode 0x200100000000 = .ok (.msgTx .half1) ∧
  decode 0x290100000000 = .ok .ackTxFrame ∧
  decode 0x480000003FFE = .ok (.map 14 1023) ∧
  decode 0x03000000007F = .ok (.errClr 0x7F)

/-- A link carries a word as `le_6(CW)`; fewer than six bytes are no word (R60). -/
def Obligations.LinkBytesCarryWholeWords : Prop :=
  (∀ (cw : CmdWord) (rest : List Byte),
    decodeBytes (bytesOfWord cw ++ rest) =
      match decode cw with
      | .ok i => .ok (i, rest)
      | .error e => .error e) ∧
  ∀ bs : List Byte, bs.length < 6 → decodeBytes bs = .error .partialWord

/-! ### Steps -/

/-- When the oldest input is a word that decodes to a command and the block is between steps, the step is that
command's meaning, with the word taken from the input (R13, R54). -/
def Obligations.StepRunsDecodedCommand : Prop :=
  ∀ (s : State) (cw : CmdWord) (rest : List Input) (i : Instr),
    s.held = false → s.input = .command cw :: rest → decode cw = .ok i → step s = exec i (s.setInput rest)

/-- With nothing presented, or held by an unanswered write with no reset presented, the block stays as it is (R60, R144,
R176; the hold as a state of its own is the model's reading, log entry 6). -/
def Obligations.WaitingAndHoldingChangeNothing : Prop :=
  ∀ s : State, s.input = [] ∨ (s.held = true ∧ .reset ∉ s.input) → step s = .next s

/-- No step stops the block: no fault, no refusal, whatever stands on the input (R152, R154, R176). -/
def Obligations.NoStepStopsTheBlock : Prop :=
  ∀ s : State, ∃ t, step s = .next t

/-- Every event stays in the trace, and a step appends after all events before it (R13, R55, R169). -/
def Obligations.TraceOnlyGrows : Prop :=
  ∀ s t : State, step s = .next t → ∃ es, t.trace = s.trace ++ es

/-- R35: every step keeps the ranges of R35. -/
def Obligations.RangesKeptByEveryStep : Prop :=
  ∀ s t : State, s.InRange → step s = .next t → t.InRange

/-- The ranges of R35 hold right after reset. -/
def Obligations.ResetIsInRange : Prop := State.reset.InRange

/-- Every step keeps `FrameSound`: FRX_CRC is the CRC of the bytes held so far, from the CFG.CRC_INIT read at byte 0, and
VALID = 1 means that FMAGIC_RCVD, FSEQ and PBUF hold a frame whose CRC from that value was the received one and whose
magic was the CFG.FRAME_MAGIC read at byte 519 (R24, R93). -/
def Obligations.ValidFrameStaysSound : Prop :=
  ∀ (init magic : Word16) (s t : State), s.InRange → s.FrameSound init magic → step s = .next t →
    t.FrameSound (s.frameInit init) (s.verdictMagic magic)

/-- `FrameSound` holds right after reset, whatever the two values: no frame is in progress and VALID = 0 (R167). -/
def Obligations.ResetIsFrameSound : Prop := ∀ init magic : Word16, State.reset.FrameSound init magic

/-- Every step keeps `MessageSound` (R29, R140, R143; the held case rests on log entry 6). -/
def Obligations.MessageStaysSound : Prop :=
  ∀ s t : State, s.InRange → s.MessageSound → step s = .next t → t.MessageSound

/-- `MessageSound` holds right after reset. -/
def Obligations.ResetIsMessageSound : Prop := State.reset.MessageSound

/-- The reset step (R167, R169): taken when reset is the oldest input, and during a hold whatever words wait in front of
it, it sets every register to its reset value, emits nothing and ends the hold. The model's choices here: reset is
taken in order with the words, the words in front of it stay presented, and the sink's replies stay (log entry 13); the
hold as a state of its own (log entry 6). -/
def Obligations.ResetStepSetsResetValues : Prop :=
  ∀ (s : State) (pre rest : List Input), .reset ∉ pre → (s.held = true ∨ pre = []) →
    s.input = pre ++ .reset :: rest →
    ∃ t, step s = .next t ∧ (∀ r, t.readReg r = resetValue r) ∧ t.held = false ∧
      t.trace = s.trace ∧ t.input = pre ++ rest ∧ t.sink = s.sink

/-- The machine right after reset shows the reset value of every register, has emitted nothing and waits for a first
word (R21, R22, R167, R170). -/
def Obligations.ResetStateShowsResetValues : Prop :=
  (∀ r, State.reset.readReg r = resetValue r) ∧ State.reset.trace = [] ∧ State.reset.input = [] ∧
    State.reset.held = false

/-! ### Rules of the whole machine -/

/-- Only `CFG_WR` writes a configuration register; each holds a value of its width; a value that does not fit is illegal
and writes nothing; and `REG_RD` reads it (R20, R66). That `exec` on such a term, for which no legal word stands, sets
ERR.ILLEGAL is the model's choice (log entry 9). -/
def Obligations.ConfigWrittenOnlyByCfgWr : Prop :=
  (∀ (i : Instr) (s t : State), (∀ r v, i ≠ .cfgWr r v) → exec i s = .next t →
    ∀ r, t.readReg (.cfg r) = s.readReg (.cfg r)) ∧
  (∀ (s : State) (r : CfgReg), (s.readReg (.cfg r)).toNat < 2 ^ r.width) ∧
  (∀ (s : State) (r : CfgReg) (v : Word32), ¬ r.Fits v →
    exec (.cfgWr r v) s = .next (s.raise .illegal) ∧ ∃ e, decode (encode (.cfgWr r v)) = .error e) ∧
  ∀ (s : State) (r : CfgReg), exec (.regRd (.cfg r)) s = .next (s.respond (s.readReg (.cfg r)))

/-- R30: a command sets the flag its table row names, exactly when the row says, at the bit that is its cause code; a
word that is no legal encoding sets ILLEGAL; only `ERR_CLR` and reset clear a flag. -/
def Obligations.ErrFlagsFollowTheirTable : Prop :=
  (∀ (i : Instr) (s t : State), i.WellFormed → exec i s = .next t →
    (∀ f, raisedBy s i = some f → t.err.toNat = s.err.toNat ||| 2 ^ f.code) ∧
    (raisedBy s i = none → (∀ mask, i ≠ .errClr mask) → t.err = s.err) ∧
    ∀ k, s.err.getLsbD k = true → t.err.getLsbD k = false → ∃ mask : BitVec 7, i = .errClr mask ∧ mask.getLsbD k = true) ∧
  (∀ (cw : CmdWord) (s : State), ¬ Legal cw → ∃ t, runWord cw s = .next t ∧ t.err.toNat = s.err.toNat ||| 1) ∧
  ∀ s : State, s.resetStep.err = 0

/-- R152: a command that raises a flag, or a word that is no legal encoding, sets that bit of ERR and has no other
effect. -/
def Obligations.RaisingHasNoOtherEffect : Prop :=
  (∀ (i : Instr) (s t : State), i.WellFormed → exec i s = .next t → ∀ f, raisedBy s i = some f →
    t = s.setErr t.err ∧ ∀ g : ErrFlag, t.err.getLsbD g.code = (s.err.getLsbD g.code || decide (g = f))) ∧
  ∀ (cw : CmdWord) (s : State), ¬ Legal cw → ∃ t, runWord cw s = .next t ∧
    t = s.setErr t.err ∧ ∀ g : ErrFlag, t.err.getLsbD g.code = (s.err.getLsbD g.code || decide (g = .illegal))

/-- With VALID = 0 no command forwards or acknowledges the frame: no byte leaves on MSG0 or MSG1, and `ACK_TX_FRAME` emits
nothing (R94, R110, R125). -/
def Obligations.CorruptFrameIsNeverForwarded : Prop :=
  ∀ (i : Instr) (s t : State), s.frx.valid = false → exec i s = .next t →
    ∃ es, t.trace = s.trace ++ es ∧
      (∀ b, Event.byte .msg0 b ∉ es ∧ Event.byte .msg1 b ∉ es) ∧ (i = .ackTxFrame → es = [])

/-- Only the last byte of a message asks the sink for a write (R140, R141). -/
def Obligations.WritesOnlyAtMessageEnd : Prop :=
  ∀ (i : Instr) (s t : State), exec i s = .next t →
    (∃ b, i = .mrxByte b ∧ s.mrx.cnt = 259) ∨
    ∃ es, t.trace = s.trace ++ es ∧ ∀ bus addr ch duty reply, Event.pwm bus addr ch duty reply ∉ es

/-- The CRC engine's register is used only by its two commands and by reading it: changing it changes nothing else any
other command does; and its two commands leave the frame units alone (R23). -/
def Obligations.CrcEngineIsIndependent : Prop :=
  (∀ (i : Instr) (s t : State) (x : Word16), i ≠ .crcInit → (∀ b, i ≠ .crcByte b) → i ≠ .regRd .crc →
    exec i s = .next t → t.crc = s.crc ∧ exec i (s.setCrc x) = .next (t.setCrc x)) ∧
  ∀ (i : Instr) (s t : State), (i = .crcInit ∨ ∃ b, i = .crcByte b) → exec i s = .next t →
    t.frx = s.frx ∧ t.ftx = s.ftx

/-- `REG_RD`, `PBUF_RD` and `MAP` change no state, and repeating one gives the same response (R51). -/
def Obligations.ReadsAreIdempotent : Prop :=
  ∀ (i : Instr) (s : State), ((∃ r, i = .regRd r) ∨ (∃ idx, i = .pbufRd idx) ∨ ∃ v g, i = .map v g) →
    ∃ w, ∃ t u, exec i s = .next t ∧ Effect [] [.rsp w] s t ∧ exec i t = .next u ∧ Effect [] [.rsp w] t u

/-- R122: a wait in progress goes on unchanged through every step but these: an `AW_BYTE` that completes the accepted
magic and the expected seq (MATCH), an `AW_TICK` that reaches the limit (TIMEOUT), and reset. Nothing else is emitted when
it ends, so nothing is sent again. -/
def Obligations.WaitEndsOnlyByMatchOrTimeout : Prop :=
  ∀ s t : State, s.aw.state = .wait → step s = .next t →
    (t.aw.state = .wait ∧ t.aw.exp = s.aw.exp ∧ t.aw.limit = s.aw.limit ∧ t.aw.slot = s.aw.slot) ∨
    (∃ cw rest, s.input = .command cw :: rest ∧
      ((t.aw.state = .matched ∧ ∃ b, decode cw = .ok (.awByte b) ∧ s.aw.n = 6 ∧
        t.aw.win[0] = s.cfg.ackMagicRx.extractLsb' 0 8 ∧ t.aw.win[1] = s.cfg.ackMagicRx.extractLsb' 8 8 ∧
        fromLe [t.aw.win[2], t.aw.win[3], t.aw.win[4], t.aw.win[5]] = s.aw.exp.toNat ∧
        Emits [.ackw s.aw.slot .matched b] s t) ∨
      (t.aw.state = .timeout ∧ decode cw = .ok .awTick ∧ s.aw.limit ≤ s.aw.elapsed + 1 ∧
        Emits [.ackw s.aw.slot .timeout 0] s t))) ∨
    ((s.input.head? = some .reset ∨ (s.held = true ∧ .reset ∈ s.input)) ∧ t.aw.state = .idle ∧ Emits [] s t)

/-- A path flag becomes 1 only when a wait in its slot ends with MATCH and status exactly 0x01 (R113, R127). -/
def Obligations.PathSucceedsOnlyByAcceptedAck : Prop :=
  ∀ (i : Instr) (s t : State), exec i s = .next t →
    (t.path.ok0 = true → s.path.ok0 = true ∨
      (s.aw.state = .wait ∧ s.aw.slot = .slot0 ∧ t.aw.state = .matched ∧ t.aw.status = 1)) ∧
    (t.path.ok1 = true → s.path.ok1 = true ∨
      (s.aw.state = .wait ∧ s.aw.slot = .slot1 ∧ t.aw.state = .matched ∧ t.aw.status = 1))

/-! ### Control commands -/

/-- R81: `NOP` changes nothing and emits nothing; it is not a tick. -/
def Obligations.NopChangesNothing : Prop :=
  WordsOf 0x00 ∧ ∀ s : State, exec .nop s = .next s

/-- R82: `CFG_WR` of a value that fits writes that register and nothing else; of one that does not, the word is illegal
and the register is unchanged. -/
def Obligations.CfgWrWritesOneRegister : Prop :=
  WordsOf 0x01 ∧ ∀ (s : State) (r : CfgReg) (v : Word32),
    (r.Fits v → ∃ t, exec (.cfgWr r v) s = .next t ∧ t.readReg (.cfg r) = v ∧ Effect [.cfg r] [] s t) ∧
    (¬ r.Fits v → ∃ t, runWord (encode (.cfgWr r v)) s = .next t ∧ (t.readReg .err).toNat = s.err.toNat ||| 1 ∧
      Effect [.err] [] s t)

/-- R83: `REG_RD` answers one response, the sum of the register's fields at their places (R22), and changes nothing. -/
def Obligations.RegRdShowsItsFields : Prop :=
  WordsOf 0x02 ∧ ∀ (s : State) (r : Reg), ∃ t w, exec (.regRd r) s = .next t ∧ Effect [] [.rsp w] s t ∧ w.toNat = regSum s r

/-- R84: `ERR_CLR` clears the flags whose mask bit is 1 and leaves the others and everything else. -/
def Obligations.ErrClrClearsMaskedFlags : Prop :=
  WordsOf 0x03 ∧ ∀ (s : State) (mask : BitVec 7), ∃ t, exec (.errClr mask) s = .next t ∧ Effect [.err] [] s t ∧
    ∀ k, t.err.getLsbD k = (s.err.getLsbD k && !mask.getLsbD k)

/-! ### Frame codec -/

/-- `upd` is the CRC taken one message bit at a time, most significant bit first (R47, R89). -/
def Obligations.CrcUpdateIsBitSerial : Prop :=
  ∀ (r : Word16) (b : Byte), crcUpdate r b = (bitsOf b).foldl crcBit r

/-- Two streams that differ in exactly one byte never have the same CRC, so a frame with one wrong byte among those the
CRC covers never checks (R89, R93). -/
def Obligations.OneWrongByteChangesTheCrc : Prop :=
  ∀ (init : Word16) (xs ys : List Byte) (a b : Byte), a ≠ b →
    crcOf init (xs ++ a :: ys) ≠ crcOf init (xs ++ b :: ys)

/-- R90, R91: `CRC_INIT` loads the configured initial value, `CRC_BYTE` feeds one byte, most significant bit first; each
writes CRC and nothing else. -/
def Obligations.CrcCommandsWriteCrcOnly : Prop :=
  WordsOf 0x08 ∧ WordsOf 0x09 ∧ ∀ s : State,
    (∃ t, exec .crcInit s = .next t ∧ t.crc = s.cfg.crcInit ∧ Effect [.crc] [] s t) ∧
    ∀ b, ∃ t, exec (.crcByte b) s = .next t ∧ t.crc = (bitsOf b).foldl crcBit s.crc ∧ Effect [.crc] [] s t

/-- R92, R139: `FRX_START` and `MRX_START` set their receiver's counter to 0 and change nothing else. -/
def Obligations.StartCommandsRearm : Prop :=
  WordsOf 0x10 ∧ WordsOf 0x40 ∧ ∀ s : State,
    (∃ t, exec .frxStart s = .next t ∧ t.frx.cnt = 0 ∧ Effect [.frxCnt] [] s t) ∧
    ∃ t, exec .mrxStart s = .next t ∧ t.mrx.cnt = 0 ∧ Effect [.mrxCnt] [] s t

/-- R93: what each byte of a frame does, by its offset k, in a state that meets the ranges of R35. -/
def Obligations.FrxByteReceivesAFrame : Prop :=
  WordsOf 0x11 ∧ ∀ (s : State) (b : Byte), s.InRange → ∃ t, exec (.frxByte b) s = .next t ∧
    t.mrx.mbuf = s.mrx.mbuf ∧ OutsideKept s t ∧
    t.frx.cnt.toNat = (if s.frx.cnt.toNat = 519 then 0 else s.frx.cnt.toNat + 1) ∧
    (s.frx.cnt.toNat ≠ 519 → Emits [] s t ∧ t.frx.magicErr = s.frx.magicErr ∧ t.frx.crcErr = s.frx.crcErr) ∧
    (s.frx.cnt.toNat < 6 ∨ 517 < s.frx.cnt.toNat → t.frx.pbuf = s.frx.pbuf) ∧
    (s.frx.cnt.toNat = 0 →
      RegsKept [.frxCnt, .fstat, .path, .frxCrc, .fmagicRcvd] s t ∧ t.frx.valid = false ∧ t.path = ⟨false, false⟩ ∧
      t.frx.crc = crcUpdate s.cfg.crcInit b ∧ t.frx.magicRcvd.toNat = b.toNat) ∧
    (s.frx.cnt.toNat = 1 →
      RegsKept [.frxCnt, .frxCrc, .fmagicRcvd] s t ∧ t.frx.crc = crcUpdate s.frx.crc b ∧
      t.frx.magicRcvd.toNat = s.frx.magicRcvd.toNat % 256 + 256 * b.toNat) ∧
    (2 ≤ s.frx.cnt.toNat ∧ s.frx.cnt.toNat ≤ 5 →
      RegsKept [.frxCnt, .frxCrc, .fseq] s t ∧ t.frx.crc = crcUpdate s.frx.crc b ∧
      (s.frx.cnt.toNat = 2 → t.frx.seq.toNat = b.toNat) ∧
      (s.frx.cnt.toNat ≠ 2 → ∀ j, j < 4 → t.frx.seq.extractLsb' (8 * j) 8 =
        if j = s.frx.cnt.toNat - 2 then b else s.frx.seq.extractLsb' (8 * j) 8)) ∧
    (6 ≤ s.frx.cnt.toNat ∧ s.frx.cnt.toNat ≤ 517 →
      RegsKept [.frxCnt, .frxCrc] s t ∧ t.frx.crc = crcUpdate s.frx.crc b ∧
      ∀ j (hj : j < 512), t.frx.pbuf[j] = if j = s.frx.cnt.toNat - 6 then b else s.frx.pbuf[j]) ∧
    (s.frx.cnt.toNat = 518 → RegsKept [.frxCnt, .fcrcRcvd] s t ∧ t.frx.crcRcvd.toNat = b.toNat) ∧
    (s.frx.cnt.toNat = 519 →
      RegsKept [.frxCnt, .fcrcRcvd, .fstat] s t ∧
      t.frx.crcRcvd.toNat = s.frx.crcRcvd.toNat % 256 + 256 * b.toNat ∧
      (t.frx.magicErr = true ↔ s.frx.magicRcvd ≠ s.cfg.frameMagic) ∧
      (t.frx.crcErr = true ↔ s.frx.crc ≠ t.frx.crcRcvd) ∧
      (t.frx.valid = true ↔ t.frx.magicErr = false ∧ t.frx.crcErr = false) ∧
      Emits [.frame t.frx.valid t.frx.magicErr t.frx.crcErr s.frx.seq] s t)

/-- R95: `PBUF_RD idx` answers payload byte idx, zero-extended, whatever VALID is, and changes nothing. -/
def Obligations.PbufRdAnswersOneByte : Prop :=
  WordsOf 0x12 ∧ ∀ (s : State) (idx : BitVec 9), ∃ t w, exec (.pbufRd idx) s = .next t ∧ Effect [] [.rsp w] s t ∧
    w.toNat = (s.frx.pbuf[idx.toNat]'idx.isLt).toNat

/-- R97: `FTX_START seq` emits the magic and the seq, little-endian, and opens a frame; during a frame it raises FTX_BUSY
and does nothing else. -/
def Obligations.FtxStartOpensAFrame : Prop :=
  WordsOf 0x18 ∧ ∀ (s : State) (seq : Word32),
    (s.ftx.active = false → ∃ t bs, exec (.ftxStart seq) s = .next t ∧
      bs = [s.cfg.frameMagic.extractLsb' 0 8, s.cfg.frameMagic.extractLsb' 8 8, seq.extractLsb' 0 8,
        seq.extractLsb' 8 8, seq.extractLsb' 16 8, seq.extractLsb' 24 8] ∧
      Effect [.ftxStat, .ftxCnt, .ftxCrc] (bs.map (.byte .frameOut)) s t ∧
      t.ftx.active = true ∧ t.ftx.cnt = 0 ∧ t.ftx.crc = crcOf s.cfg.crcInit bs) ∧
    (s.ftx.active = true → ∃ t, exec (.ftxStart seq) s = .next t ∧ Effect [.err] [] s t ∧
      (t.readReg .err).toNat = s.err.toNat ||| 0x20)

/-- R98: `FTX_BYTE b` emits b; the 512th also emits the CRC, low byte first, and closes the frame; with no frame in
progress it raises FTX_IDLE and does nothing else. -/
def Obligations.FtxByteSendsPayload : Prop :=
  WordsOf 0x19 ∧ ∀ (s : State) (b : Byte),
    (s.ftx.active = true → ∃ t, exec (.ftxByte b) s = .next t ∧
      RegsKept [.ftxStat, .ftxCnt, .ftxCrc] s t ∧ BuffersKept s t ∧ OutsideKept s t ∧
      t.ftx.crc = crcUpdate s.ftx.crc b ∧
      (s.ftx.cnt ≠ 511 → t.ftx.active = true ∧ t.ftx.cnt = s.ftx.cnt + 1 ∧ Emits [.byte .frameOut b] s t) ∧
      (s.ftx.cnt = 511 → t.ftx.active = false ∧ t.ftx.cnt = 0 ∧
        Emits [.byte .frameOut b, .byte .frameOut (t.ftx.crc.extractLsb' 0 8),
          .byte .frameOut (t.ftx.crc.extractLsb' 8 8)] s t)) ∧
    (s.ftx.active = false → ∃ t, exec (.ftxByte b) s = .next t ∧ Effect [.err] [] s t ∧
      (t.readReg .err).toNat = s.err.toNat ||| 0x40)

/-- R96: `FTX_START seq` and the 512 `FTX_BYTE` of a payload emit exactly the reference encoder's 520 bytes on
FRAME_OUT. -/
def Obligations.TransmitterEmitsReferenceEncoding : Prop :=
  ∀ (s : State) (seq : Word32) (p : List Byte), s.ftx.active = false → p.length = 512 →
    ∃ t, execAll (ftxFrame seq p) s = .next t ∧ t.ftx.active = false ∧
      Emits ((leBytes 2 s.cfg.frameMagic ++ leBytes 4 seq ++ p ++
        leBytes 2 (crcOf s.cfg.crcInit (leBytes 2 s.cfg.frameMagic ++ leBytes 4 seq ++ p))).map (.byte .frameOut)) s t

/-- The round trip (R99): a receiver at byte 0 fed the reference encoding, under the same magic and initial value,
holds the seq and the payload with VALID = 1. -/
def Obligations.ReceiverAcceptsReferenceEncoding : Prop :=
  ∀ (s : State) (seq : Word32) (p : List Byte), s.frx.cnt = 0 → p.length = 512 →
    ∃ t, execAll (frxBytes (frameBytes s.cfg seq p)) s = .next t ∧ t.frx.valid = true ∧ t.frx.cnt = 0 ∧
      t.frx.seq = seq ∧ t.frx.pbuf.toList = p ∧ Emits [.frame true false false seq] s t

/-! ### Acknowledgement channel -/

/-- R109: `ACK_SEQ` writes ATXSEQ and nothing else. -/
def Obligations.AckSeqWritesAtxSeq : Prop :=
  WordsOf 0x28 ∧ ∀ (s : State) (seq : Word32), ∃ t, exec (.ackSeq seq) s = .next t ∧ t.readReg .atxSeq = seq ∧
    Effect [.atxSeq] [] s t

/-- R112: `ACK_TX_RAW status` emits CFG.ACK_MAGIC_TX, ATXSEQ and the status on ACK_OUT, little-endian. -/
def Obligations.AckTxRawEmitsSevenBytes : Prop :=
  WordsOf 0x29 ∧ ∀ (s : State) (status : Byte), ∃ t, exec (.ackTxRaw status) s = .next t ∧
    Effect [] (ackEvents s.cfg.ackMagicTx s.atxSeq status) s t

/-- R110: `ACK_TX_FRAME` acknowledges FSEQ with status 1 only if both paths succeeded; with no valid frame it raises
NOFRAME and emits nothing. -/
def Obligations.AckTxFrameReportsBothPaths : Prop :=
  WordsOf 0x29 ∧ ∀ s : State,
    (s.frx.valid = true → ∃ t, exec .ackTxFrame s = .next t ∧
      Effect [] (ackEvents s.cfg.ackMagicTx s.frx.seq (if s.path = ⟨true, true⟩ then 1 else 0)) s t) ∧
    (s.frx.valid = false → ∃ t, exec .ackTxFrame s = .next t ∧ Effect [.err] [] s t ∧
      (t.readReg .err).toNat = s.err.toNat ||| 0x08)

/-- R111: `ACK_TX_MSG` acknowledges MSEQ with NODE_OK; with no complete message it raises NOMSG and emits nothing. -/
def Obligations.AckTxMsgReportsTheNode : Prop :=
  WordsOf 0x29 ∧ ∀ s : State,
    (s.mrx.done = true → ∃ t, exec .ackTxMsg s = .next t ∧
      Effect [] (ackEvents s.cfg.ackMagicTx s.mrx.seq (if s.mrx.nodeOk = true then 1 else 0)) s t) ∧
    (s.mrx.done = false → ∃ t, exec .ackTxMsg s = .next t ∧ Effect [.err] [] s t ∧
      (t.readReg .err).toNat = s.err.toNat ||| 0x10)

/-- R113: the end of a wait records the result and the status, sets the slot's path flag exactly on MATCH with status
0x01, leaves the other path, and emits one ACKW event. -/
def Obligations.FinishRecordsTheResult : Prop :=
  ∀ (s : State) (r : WaitResult) (status : Byte),
    RegsKept [.awStat, .path] s (s.finishWait r status) ∧ BuffersKept s (s.finishWait r status) ∧
    OutsideKept s (s.finishWait r status) ∧ Emits [.ackw s.aw.slot r status] s (s.finishWait r status) ∧
    (s.finishWait r status).aw.state = (match r with | .matched => .matched | .timeout => .timeout) ∧
    (s.finishWait r status).aw.status = status ∧
    (s.finishWait r status).aw.slot = s.aw.slot ∧ (s.finishWait r status).aw.n = s.aw.n ∧
    (s.aw.slot = .slot0 → ((s.finishWait r status).path.ok0 = true ↔ r = .matched ∧ status = 1) ∧
      (s.finishWait r status).path.ok1 = s.path.ok1) ∧
    (s.aw.slot = .slot1 → ((s.finishWait r status).path.ok1 = true ↔ r = .matched ∧ status = 1) ∧
      (s.finishWait r status).path.ok0 = s.path.ok0) ∧
    (s.aw.slot = .slot2 → (s.finishWait r status).path = s.path)

/-- R114: `AW_START` arms a wait, latching the timeout and keeping AWIN; a zero timeout ends it at once as TIMEOUT, which
fails the slot's path; during a wait it raises AW_BUSY and changes nothing else. -/
def Obligations.AwStartArmsAWait : Prop :=
  WordsOf 0x30 ∧ ∀ (s : State) (slot : Slot) (seq : Word32),
    (s.aw.state ≠ .wait → ∃ t, exec (.awStart slot seq) s = .next t ∧
      BuffersKept s t ∧ OutsideKept s t ∧ t.aw.win = s.aw.win ∧
      t.aw.slot = slot ∧ t.aw.exp = seq ∧ t.aw.n = 0 ∧ t.aw.elapsed = 0 ∧ t.aw.limit = s.cfg.awTimeout ∧
      t.aw.status = 0 ∧
      (s.cfg.awTimeout ≠ 0 → t.aw.state = .wait ∧ RegsKept [.awStat, .awExp, .awElapsed, .awLimit] s t ∧ Emits [] s t) ∧
      (s.cfg.awTimeout = 0 → t.aw.state = .timeout ∧
        RegsKept [.awStat, .awExp, .awElapsed, .awLimit, .path] s t ∧ Emits [.ackw slot .timeout 0] s t ∧
        t.path.ok0 = (if slot = .slot0 then false else s.path.ok0) ∧
        t.path.ok1 = (if slot = .slot1 then false else s.path.ok1))) ∧
    (s.aw.state = .wait → ∃ t, exec (.awStart slot seq) s = .next t ∧ Effect [.err] [] s t ∧
      (t.readReg .err).toNat = s.err.toNat ||| 0x02)

/-- R115, R116: in a wait, `AW_BYTE b` puts b at AWIN[AW_N]; the seventh byte is checked, and either the accepted magic
and the expected seq end the wait as MATCH with status b, or the window slides by one byte; outside a wait it raises
AW_STRAY and changes nothing else. The hypothesis AW_N ≤ 6 in a wait is R35's. -/
def Obligations.AwByteFillsAndChecks : Prop :=
  WordsOf 0x31 ∧ ∀ (s : State) (b : Byte),
    (s.aw.state = .wait → s.aw.n.toNat ≤ 6 → ∃ t, exec (.awByte b) s = .next t ∧
      BuffersKept s t ∧ OutsideKept s t ∧
      (s.aw.n.toNat < 6 → t.aw.state = .wait ∧ t.aw.n.toNat = s.aw.n.toNat + 1 ∧ Emits [] s t ∧
        RegsKept [.awStat, .awWinLo, .awWinHi] s t ∧ t.aw.slot = s.aw.slot ∧ t.aw.status = s.aw.status ∧
        ∀ j (hj : j < 7), t.aw.win[j] = if j = s.aw.n.toNat then b else s.aw.win[j]) ∧
      (s.aw.n.toNat = 6 →
        (s.aw.win[0] = s.cfg.ackMagicRx.extractLsb' 0 8 ∧ s.aw.win[1] = s.cfg.ackMagicRx.extractLsb' 8 8 ∧
          fromLe [s.aw.win[2], s.aw.win[3], s.aw.win[4], s.aw.win[5]] = s.aw.exp.toNat →
          t.aw.state = .matched ∧ t.aw.n = 7 ∧ t.aw.status = b ∧ t.aw.slot = s.aw.slot ∧
          Emits [.ackw s.aw.slot .matched b] s t ∧ RegsKept [.awStat, .awWinLo, .awWinHi, .path] s t ∧
          (∀ j (hj : j < 7), t.aw.win[j] = if j = 6 then b else s.aw.win[j]) ∧
          t.path.ok0 = (if s.aw.slot = .slot0 then decide (b = 1) else s.path.ok0) ∧
          t.path.ok1 = (if s.aw.slot = .slot1 then decide (b = 1) else s.path.ok1)) ∧
        (¬ (s.aw.win[0] = s.cfg.ackMagicRx.extractLsb' 0 8 ∧ s.aw.win[1] = s.cfg.ackMagicRx.extractLsb' 8 8 ∧
          fromLe [s.aw.win[2], s.aw.win[3], s.aw.win[4], s.aw.win[5]] = s.aw.exp.toNat) →
          t.aw.state = .wait ∧ t.aw.n = 6 ∧ t.aw.slot = s.aw.slot ∧ t.aw.status = s.aw.status ∧ Emits [] s t ∧
          RegsKept [.awStat, .awWinLo, .awWinHi] s t ∧
          t.aw.win = #v[s.aw.win[1], s.aw.win[2], s.aw.win[3], s.aw.win[4], s.aw.win[5], b, b]))) ∧
    (s.aw.state ≠ .wait → ∃ t, exec (.awByte b) s = .next t ∧ Effect [.err] [] s t ∧
      (t.readReg .err).toNat = s.err.toNat ||| 0x04)

/-- R117: in a wait, `AW_TICK` counts one tick and ends the wait as TIMEOUT exactly when the count reaches the limit;
outside a wait it does nothing. The hypothesis on the counts is R35's. -/
def Obligations.AwTickCountsToTheLimit : Prop :=
  WordsOf 0x32 ∧ ∀ s : State,
    (s.aw.state = .wait → s.aw.elapsed.toNat < s.aw.limit.toNat → ∃ t, exec .awTick s = .next t ∧
      BuffersKept s t ∧ OutsideKept s t ∧ t.aw.elapsed.toNat = s.aw.elapsed.toNat + 1 ∧
      t.aw.slot = s.aw.slot ∧ t.aw.n = s.aw.n ∧
      (s.aw.elapsed.toNat + 1 < s.aw.limit.toNat → t.aw.state = .wait ∧ t.aw.status = s.aw.status ∧
        RegsKept [.awElapsed] s t ∧ Emits [] s t) ∧
      (s.aw.elapsed.toNat + 1 = s.aw.limit.toNat → t.aw.state = .timeout ∧ t.aw.status = 0 ∧
        RegsKept [.awElapsed, .awStat, .path] s t ∧ Emits [.ackw s.aw.slot .timeout 0] s t ∧
        t.path.ok0 = (if s.aw.slot = .slot0 then false else s.path.ok0) ∧
        t.path.ok1 = (if s.aw.slot = .slot1 then false else s.path.ok1))) ∧
    (s.aw.state ≠ .wait → exec .awTick s = .next s)

/-- With nothing but ticks after `AW_START` (R117, R121), the wait ends with TIMEOUT on the AW_LIMIT-th `AW_TICK`, not
earlier. -/
def Obligations.EmptyStreamTimesOutOnTheLimitthTick : Prop :=
  ∀ (s : State) (slot : Slot) (seq : Word32) (n : Nat), s.aw.state ≠ .wait → s.cfg.awTimeout ≠ 0 →
    n ≤ s.cfg.awTimeout.toNat →
    ∃ t, execAll (.awStart slot seq :: ticks n) s = .next t ∧ t.aw.elapsed.toNat = n ∧
      (n < s.cfg.awTimeout.toNat → t.aw.state = .wait ∧ Emits [] s t) ∧
      (n = s.cfg.awTimeout.toNat → t.aw.state = .timeout ∧ Emits [.ackw slot .timeout 0] s t)

/-- One stray leading byte (R118): in a wait with an empty window, a stray byte and then the expected acknowledgement
end in MATCH on its last byte, unless the first seven bytes happen to spell the magic and the seq. -/
def Obligations.StrayLeadingByteIsSkipped : Prop :=
  ∀ (s : State) (x status : Byte), s.aw.state = .wait → s.aw.n = 0 →
    ¬ ((x :: ackBytes s.cfg.ackMagicRx s.aw.exp status).take 6 =
      (ackBytes s.cfg.ackMagicRx s.aw.exp status).take 6) →
    ∃ t, execAll (awBytes (x :: ackBytes s.cfg.ackMagicRx s.aw.exp status)) s = .next t ∧
      t.aw.state = .matched ∧ t.aw.status = status ∧ t.aw.n = 7 ∧ t.err = s.err ∧
      Emits [.ackw s.aw.slot .matched status] s t

/-! ### Relay -/

/-- R125: `MSG_TX h` emits FSEQ, little-endian, then the 256 bytes of half h, on MSG0 or MSG1; with no valid frame it
raises NOFRAME and emits nothing. -/
def Obligations.MsgTxSendsOneHalf : Prop :=
  WordsOf 0x20 ∧ ∀ (s : State) (h : Half),
    (s.frx.valid = true → ∃ (t : State) (bs : List Byte), exec (.msgTx h) s = .next t ∧
      Effect [] (bs.map (.byte (match h with | .half0 => .msg0 | .half1 => .msg1))) s t ∧
      bs.length = 260 ∧
      (∀ k, k < 4 → bs[k]? = some (s.frx.seq.extractLsb' (8 * k) 8)) ∧
      ∀ k, k < 256 → bs[4 + k]? = s.frx.pbuf[(match h with | .half0 => 0 | .half1 => 256) + k]?) ∧
    (s.frx.valid = false → ∃ t, exec (.msgTx h) s = .next t ∧ Effect [.err] [] s t ∧
      (t.readReg .err).toNat = s.err.toNat ||| 0x08)

/-! ### Mapper and actuator node -/

/-- R135: `MAP v, g` answers the left duty in [11:0], the right duty in [23:12], the board address in [30:24] and the
bus in [31], and changes nothing. -/
def Obligations.MapAnswersDutyAndRoute : Prop :=
  WordsOf 0x48 ∧ ∀ (s : State) (v : BitVec 4) (g : BitVec 10), ∃ t w, exec (.map v g) s = .next t ∧ Effect [] [.rsp w] s t ∧
    w.toNat = leftDuty v + 2 ^ 12 * rightDuty v + 2 ^ 24 * (0x40 + g.toNat % 512 / 8) + 2 ^ 31 * (g.toNat / 512)

/-- The writes of a message (R131, R133, R141, R142): 1024 of them, magnet i giving the left channel and then the right
channel of its board, in ascending board and channel order, with the duties of its nibble; 15 gives two zeros (R137). -/
def Obligations.MessageWritesFollowTheRouting : Prop :=
  ∀ mbuf : Bytes 256, (messageWrites mbuf).length = 1024 ∧
    ∀ k, k < 1024 → ∃ w v, (messageWrites mbuf)[k]? = some w ∧
      mbuf[k / 4]?.map (fun b => b.toNat / 16 ^ (k / 2 % 2) % 16) = some v ∧
      w.addr.toNat = 0x40 + k / 16 ∧ w.ch.toNat = k % 16 ∧
      w.duty.toNat = (if k % 2 = 0 then leftDuty (BitVec.ofNat 4 v) else rightDuty (BitVec.ofNat 4 v)) ∧
      (v = 15 → w.duty = 0)

/-- The bytes of a message before its last (R140): what each does, by its offset k. -/
def Obligations.MrxByteStoresAMessage : Prop :=
  WordsOf 0x41 ∧ ∀ (s : State) (b : Byte), s.mrx.cnt.toNat < 259 → ∃ t, exec (.mrxByte b) s = .next t ∧
    t.frx.pbuf = s.frx.pbuf ∧ OutsideKept s t ∧ Emits [] s t ∧ t.mrx.cnt.toNat = s.mrx.cnt.toNat + 1 ∧
    (s.mrx.cnt.toNat < 4 → t.mrx.mbuf = s.mrx.mbuf) ∧
    (s.mrx.cnt.toNat = 0 → RegsKept [.mrxCnt, .mstat, .mseq] s t ∧ t.mrx.nodeOk = true ∧ t.mrx.done = false ∧
      t.mrx.seq.toNat = b.toNat) ∧
    (1 ≤ s.mrx.cnt.toNat ∧ s.mrx.cnt.toNat ≤ 3 → RegsKept [.mrxCnt, .mseq] s t ∧
      ∀ j, j < 4 → t.mrx.seq.extractLsb' (8 * j) 8 =
        if j = s.mrx.cnt.toNat then b else s.mrx.seq.extractLsb' (8 * j) 8) ∧
    (4 ≤ s.mrx.cnt.toNat → RegsKept [.mrxCnt] s t ∧
      ∀ j (hj : j < 256), t.mrx.mbuf[j] = if j = s.mrx.cnt.toNat - 4 then b else s.mrx.mbuf[j])

/-- The last byte of a message when the sink answers every write, with SINK_STOP = 0 or with every answer ok (R140, R141,
R143): all 1024 writes are issued on the configured bus, NODE_OK is 1 exactly when it was and every write was answered
ok, MDONE is set and the event follows the writes. The sink's answers are free (log entry 3). -/
def Obligations.LastByteAppliesTheMessage : Prop :=
  ∀ (s : State) (b : Byte), s.held = false → s.mrx.cnt = 259 →
    (∀ n, n < 1024 → s.sink.replyAt n ≠ .never) →
    (s.cfg.ctrl = 0 ∨ (s.mrx.nodeOk = true ∧ ∀ n, n < 1024 → s.sink.replyAt n = .ok)) →
    ∃ t, exec (.mrxByte b) s = .next t ∧ RegsKept [.mrxCnt, .mstat] s t ∧ t.frx.pbuf = s.frx.pbuf ∧
      t.input = s.input ∧ t.resets = s.resets ∧ t.held = false ∧ t.sink = s.sink.after 1024 ∧
      t.mrx.mbuf = s.mrx.mbuf.set 255 b ∧ t.mrx.cnt = 0 ∧ t.mrx.done = true ∧
      (t.mrx.nodeOk = true ↔ s.mrx.nodeOk = true ∧ ∀ n, n < 1024 → s.sink.replyAt n = .ok) ∧
      Emits (writeEvents s.cfg.bank t.mrx.mbuf s.sink 1024 ++ [.msg t.mrx.nodeOk s.mrx.seq]) s t

/-- The last byte of a message with SINK_STOP = 1 (R141): the writes stop after the first that fails, and the rest are
skipped; MDONE is set with NODE_OK = 0. That NODE_OK is 1 before is `MessageSound`'s. -/
def Obligations.SinkStopSkipsAfterTheFirstFailure : Prop :=
  ∀ (s : State) (b : Byte) (m : Nat), s.held = false → s.mrx.cnt = 259 → s.cfg.ctrl = 1 → s.mrx.nodeOk = true →
    m < 1024 → (∀ n, n < m → s.sink.replyAt n = .ok) → s.sink.replyAt m = .fail →
    ∃ t, exec (.mrxByte b) s = .next t ∧ RegsKept [.mrxCnt, .mstat] s t ∧ t.frx.pbuf = s.frx.pbuf ∧
      t.input = s.input ∧ t.resets = s.resets ∧ t.held = false ∧ t.sink = s.sink.after (m + 1) ∧
      t.mrx.mbuf = s.mrx.mbuf.set 255 b ∧ t.mrx.cnt = 0 ∧ t.mrx.done = true ∧ t.mrx.nodeOk = false ∧
      Emits (writeEvents s.cfg.bank t.mrx.mbuf s.sink (m + 1) ++ [.msg false s.mrx.seq]) s t

/-- A write that is never answered (R144, R176): the step does not complete. The last byte is in MBUF, the writes up to
that one are in the trace with their answers in NODE_OK, no message event follows, MDONE is not written (so it is 0
where `MessageSound` holds), nothing else changes, and the block stays there until reset (log entry 6). -/
def Obligations.UnansweredWriteHoldsTheBlock : Prop :=
  ∀ (s : State) (b : Byte) (m : Nat), s.held = false → s.mrx.cnt = 259 → m < 1024 →
    (∀ n, n < m → s.sink.replyAt n ≠ .never) → s.sink.replyAt m = .never →
    (s.cfg.ctrl = 0 ∨ (s.mrx.nodeOk = true ∧ ∀ n, n < m → s.sink.replyAt n = .ok)) →
    ∃ t, exec (.mrxByte b) s = .next t ∧ RegsKept [.mstat] s t ∧ t.frx.pbuf = s.frx.pbuf ∧
      t.input = s.input ∧ t.resets = s.resets ∧ t.held = true ∧ t.sink = s.sink.after (m + 1) ∧
      t.mrx.mbuf = s.mrx.mbuf.set 255 b ∧ t.mrx.cnt = 259 ∧
      t.mrx.done = s.mrx.done ∧ (s.MessageSound → t.mrx.done = false) ∧
      (t.mrx.nodeOk = true ↔ s.mrx.nodeOk = true ∧ ∀ n, n < m → s.sink.replyAt n = .ok) ∧
      (.reset ∉ s.input → step t = .next t) ∧ Emits (writeEvents s.cfg.bank t.mrx.mbuf s.sink (m + 1)) s t

/-- The all-off message (R147): with SINK_STOP = 0, the last byte of a message whose 256 payload bytes are all 0x77 issues
1024 writes, every duty 0. -/
def Obligations.AllOffMessageDrivesZero : Prop :=
  ∀ (s : State), s.held = false → s.mrx.cnt = 259 → s.cfg.ctrl = 0 →
    (∀ j, j < 255 → s.mrx.mbuf[j]? = some 0x77) → (∀ n, n < 1024 → s.sink.replyAt n ≠ .never) →
    ∃ t ws, exec (.mrxByte 0x77) s = .next t ∧ ws.length = 1024 ∧
      (∀ e ∈ ws, ∃ addr ch reply, e = Event.pwm s.cfg.bank addr ch 0 reply) ∧
      Emits (ws ++ [.msg t.mrx.nodeOk s.mrx.seq]) s t

/-- One write (R146) as the external sink expands it, at register offset LED0_BASE + 4 ch, the bytes 0, 0, duty[7:0] and
duty[11:8]. LED0_BASE is a free parameter (log entry 2). -/
def Obligations.SinkExpansionIsFourBytes : Prop :=
  ∀ (ch : BitVec 4) (duty : Duty), ∃ lo hi, boardWrite ch duty = (Config.led0Base.toNat + 4 * ch.toNat, [0, 0, lo, hi]) ∧
    lo.toNat + 256 * hi.toNat = duty.toNat
end

