-- ==== Sys2Proof/Laws/Bytes.lean ====
section
/-!
SUPPORT. The small lemmas of the byte operations: little-endian lists, byte assembly of a field, and the CRC of a list
one byte longer.
-/

namespace Sys2Proof.Machine

theorem leBytes_two {w : Nat} (v : BitVec w) : leBytes 2 v = [v.extractLsb' 0 8, v.extractLsb' 8 8] := rfl

theorem leBytes_four {w : Nat} (v : BitVec w) :
    leBytes 4 v = [v.extractLsb' 0 8, v.extractLsb' 8 8, v.extractLsb' 16 8, v.extractLsb' 24 8] := rfl

@[simp] theorem leBytes_length {w : Nat} (n : Nat) (v : BitVec w) : (leBytes n v).length = n := by simp [leBytes]

/-- The low byte of a zero-extended byte is the byte. -/
theorem extractLsb'_setWidth_byte {w : Nat} (b : Byte) (h : 8 ≤ w) : (b.setWidth w).extractLsb' 0 8 = b := by
  apply BitVec.eq_of_getLsbD_eq
  intro i hi
  have : i < w := by omega
  simp [hi, this]

/-- Replacing byte j of a field writes byte j and leaves every other byte. -/
theorem extractLsb'_setByte {w : Nat} (v : BitVec w) (j k : Nat) (b : Byte) (hk : 8 * k + 8 ≤ w) (hj : 8 * j + 8 ≤ w) :
    (setByte v j b).extractLsb' (8 * k) 8 = if k = j then b else v.extractLsb' (8 * k) 8 := by
  apply BitVec.eq_of_getLsbD_eq
  intro i hi
  have h1 : 8 * k + i < w := by omega
  have ff : ∀ n, (0xFF : BitVec w).getLsbD n = decide (n < 8) := by
    intro n
    rw [show (0xFF : BitVec w) = BitVec.ofNat w 255 from rfl, BitVec.getLsbD_ofNat]
    by_cases hn : n < 8
    · have : n < w := by omega
      simp only [hn, this, decide_true, Bool.true_and]
      interval_cases n <;> decide
    · have : (255 : Nat).testBit n = false :=
        Nat.testBit_lt_two_pow (by have := Nat.pow_le_pow_right (n := 2) (by decide) (show 8 ≤ n by omega); omega)
      simp [this, hn]
  simp only [setByte, BitVec.getLsbD_extractLsb', hi, decide_true, Bool.true_and, BitVec.getLsbD_or, BitVec.getLsbD_and,
    BitVec.getLsbD_not, BitVec.getLsbD_shiftLeft, BitVec.getLsbD_setWidth, h1, ff]
  by_cases h2 : k = j
  · subst h2
    have h3 : ¬ (8 * k + i < 8 * k) := by omega
    have h4 : 8 * k + i - 8 * k = i := by omega
    have h5 : i < w := by omega
    simp [h3, h4, hi, h5]
  · rw [if_neg h2]
    simp only [BitVec.getLsbD_extractLsb', hi, decide_true, Bool.true_and]
    by_cases h3 : 8 * k + i < 8 * j
    · simp [h3]
    · have h4 : ¬ (8 * k + i - 8 * j < 8) := by omega
      have h5 : b.getLsbD (8 * k + i - 8 * j) = false := BitVec.getLsbD_of_ge _ _ (by omega)
      simp [h3, h4, h5]

@[simp] theorem crcOf_nil (init : Word16) : crcOf init [] = init := rfl

theorem crcOf_append (init : Word16) (xs ys : List Byte) : crcOf init (xs ++ ys) = crcOf (crcOf init xs) ys := by
  simp [crcOf]

end Sys2Proof.Machine
end

