-- ==== Sys2Proof/Laws/Decode.lean ====
section
/-!
SUPPORT. The small lemmas of the decoder and the encoder: a selector names what its index says, and a word is its three
fields.
-/

namespace Sys2Proof

/-! ### Selectors -/

theorem CfgReg.ofIndex_index (r : CfgReg) : CfgReg.ofIndex r.index = some r := by cases r <;> rfl

theorem Reg.ofIndex_index (r : Reg) : Reg.ofIndex r.index = some r := by
  cases r with
  | cfg c => cases c <;> rfl
  | _ => rfl

theorem Half.ofSel_sel (h : Half) : Half.ofSel h.sel = some h := by cases h <;> rfl

theorem Slot.ofSel_sel (k : Slot) : Slot.ofSel k.sel = some k := by cases k <;> rfl

/-! ### The three fields of a word (R59) -/

@[simp] theorem opcOf_mkWord (opc sel : Byte) (imm : Word32) : opcOf (mkWord opc sel imm) = opc := by
  apply BitVec.eq_of_getLsbD_eq
  intro k hk
  have h1 : ¬ (40 + k < 32) := by omega
  have h2 : ¬ (40 + k - 32 < 8) := by omega
  have h3 : 40 + k - 32 - 8 = k := by omega
  simp only [opcOf, mkWord, BitVec.getLsbD_extractLsb', BitVec.getLsbD_append]
  simp [hk, h1, h2, h3]

@[simp] theorem selOf_mkWord (opc sel : Byte) (imm : Word32) : selOf (mkWord opc sel imm) = sel := by
  apply BitVec.eq_of_getLsbD_eq
  intro k hk
  have h : 32 + k - 32 = k := by omega
  simp only [selOf, mkWord, BitVec.getLsbD_extractLsb', BitVec.getLsbD_append]
  simp [hk, h]

@[simp] theorem immOf_mkWord (opc sel : Byte) (imm : Word32) : immOf (mkWord opc sel imm) = imm := by
  apply BitVec.eq_of_getLsbD_eq
  intro k hk
  simp only [immOf, mkWord, BitVec.getLsbD_extractLsb', BitVec.getLsbD_append]
  simp [hk]

/-- A word is put together again from its fields. -/
theorem mkWord_fields (cw : CmdWord) : mkWord (opcOf cw) (selOf cw) (immOf cw) = cw := by
  apply BitVec.eq_of_getLsbD_eq
  intro k hk
  simp only [opcOf, selOf, immOf, mkWord, BitVec.getLsbD_extractLsb', BitVec.getLsbD_append]
  split
  · simp [*]
  · split
    · rw [show 32 + (k - 32) = k by omega]
      simp [*]
    · rw [show 40 + (k - 32 - 8) = k by omega]
      have : k - 32 - 8 < 8 := by omega
      simp [this]

/-- Decoding a word looks its fields up in the opcode map. -/
theorem decode_mkWord (opc sel : Byte) (imm : Word32) : decode (mkWord opc sel imm) = decodeFields opc sel imm := by
  simp [decode]

/-! ### Operand fields of IMM (R65) -/

theorem setWidth_toNat_lt {k : Nat} (x : BitVec k) : (x.setWidth 32).toNat < 2 ^ k := by
  simp only [BitVec.toNat_setWidth]
  exact lt_of_le_of_lt (Nat.mod_le _ _) x.isLt

/-- A field of at most 32 bits comes back out of IMM. -/
theorem setWidth_setWidth_back {k : Nat} (x : BitVec k) (h : k ≤ 32) : (x.setWidth 32).setWidth k = x := by
  apply BitVec.eq_of_toNat_eq
  have h1 := x.isLt
  have h2 : 2 ^ k ≤ 2 ^ 32 := Nat.pow_le_pow_right (by decide) h
  simp only [BitVec.toNat_setWidth]
  rw [Nat.mod_eq_of_lt (a := x.toNat) (by omega), Nat.mod_eq_of_lt h1]

/-- The decoder of a one-field row accepts every value of the field. -/
theorem decodeField_setWidth {k : Nat} (m : String) (mk : BitVec k → Instr) (x : BitVec k) (h : k ≤ 32) :
    decodeField k m mk 0 (x.setWidth 32) = .ok (mk x) := by
  simp only [decodeField, unlessReserved, setWidth_setWidth_back x h, setWidth_toNat_lt x, decide_true]
  rfl

end Sys2Proof
end

