-- ==== Sys2Proof/Laws/State.lean ====
section
/-!
SUPPORT. One lemma per field per replacement of a field of `State`, each true by `rfl`, so that no proof unfolds a
record update.
-/

namespace Sys2Proof.Machine

/-! ### `State.setCfg` -/

@[simp] theorem State.setCfg_cfg (s : State) (x : CfgRegs) : (s.setCfg x).cfg = x := rfl
@[simp] theorem State.setCfg_crc (s : State) (x : CfgRegs) : (s.setCfg x).crc = s.crc := rfl
@[simp] theorem State.setCfg_frx (s : State) (x : CfgRegs) : (s.setCfg x).frx = s.frx := rfl
@[simp] theorem State.setCfg_ftx (s : State) (x : CfgRegs) : (s.setCfg x).ftx = s.ftx := rfl
@[simp] theorem State.setCfg_aw (s : State) (x : CfgRegs) : (s.setCfg x).aw = s.aw := rfl
@[simp] theorem State.setCfg_path (s : State) (x : CfgRegs) : (s.setCfg x).path = s.path := rfl
@[simp] theorem State.setCfg_atxSeq (s : State) (x : CfgRegs) : (s.setCfg x).atxSeq = s.atxSeq := rfl
@[simp] theorem State.setCfg_mrx (s : State) (x : CfgRegs) : (s.setCfg x).mrx = s.mrx := rfl
@[simp] theorem State.setCfg_err (s : State) (x : CfgRegs) : (s.setCfg x).err = s.err := rfl
@[simp] theorem State.setCfg_trace (s : State) (x : CfgRegs) : (s.setCfg x).trace = s.trace := rfl
@[simp] theorem State.setCfg_input (s : State) (x : CfgRegs) : (s.setCfg x).input = s.input := rfl
@[simp] theorem State.setCfg_sink (s : State) (x : CfgRegs) : (s.setCfg x).sink = s.sink := rfl
@[simp] theorem State.setCfg_resets (s : State) (x : CfgRegs) : (s.setCfg x).resets = s.resets := rfl
@[simp] theorem State.setCfg_held (s : State) (x : CfgRegs) : (s.setCfg x).held = s.held := rfl

/-! ### `State.setCrc` -/

@[simp] theorem State.setCrc_cfg (s : State) (x : Word16) : (s.setCrc x).cfg = s.cfg := rfl
@[simp] theorem State.setCrc_crc (s : State) (x : Word16) : (s.setCrc x).crc = x := rfl
@[simp] theorem State.setCrc_frx (s : State) (x : Word16) : (s.setCrc x).frx = s.frx := rfl
@[simp] theorem State.setCrc_ftx (s : State) (x : Word16) : (s.setCrc x).ftx = s.ftx := rfl
@[simp] theorem State.setCrc_aw (s : State) (x : Word16) : (s.setCrc x).aw = s.aw := rfl
@[simp] theorem State.setCrc_path (s : State) (x : Word16) : (s.setCrc x).path = s.path := rfl
@[simp] theorem State.setCrc_atxSeq (s : State) (x : Word16) : (s.setCrc x).atxSeq = s.atxSeq := rfl
@[simp] theorem State.setCrc_mrx (s : State) (x : Word16) : (s.setCrc x).mrx = s.mrx := rfl
@[simp] theorem State.setCrc_err (s : State) (x : Word16) : (s.setCrc x).err = s.err := rfl
@[simp] theorem State.setCrc_trace (s : State) (x : Word16) : (s.setCrc x).trace = s.trace := rfl
@[simp] theorem State.setCrc_input (s : State) (x : Word16) : (s.setCrc x).input = s.input := rfl
@[simp] theorem State.setCrc_sink (s : State) (x : Word16) : (s.setCrc x).sink = s.sink := rfl
@[simp] theorem State.setCrc_resets (s : State) (x : Word16) : (s.setCrc x).resets = s.resets := rfl
@[simp] theorem State.setCrc_held (s : State) (x : Word16) : (s.setCrc x).held = s.held := rfl

/-! ### `State.setFrx` -/

@[simp] theorem State.setFrx_cfg (s : State) (x : FrameRx) : (s.setFrx x).cfg = s.cfg := rfl
@[simp] theorem State.setFrx_crc (s : State) (x : FrameRx) : (s.setFrx x).crc = s.crc := rfl
@[simp] theorem State.setFrx_frx (s : State) (x : FrameRx) : (s.setFrx x).frx = x := rfl
@[simp] theorem State.setFrx_ftx (s : State) (x : FrameRx) : (s.setFrx x).ftx = s.ftx := rfl
@[simp] theorem State.setFrx_aw (s : State) (x : FrameRx) : (s.setFrx x).aw = s.aw := rfl
@[simp] theorem State.setFrx_path (s : State) (x : FrameRx) : (s.setFrx x).path = s.path := rfl
@[simp] theorem State.setFrx_atxSeq (s : State) (x : FrameRx) : (s.setFrx x).atxSeq = s.atxSeq := rfl
@[simp] theorem State.setFrx_mrx (s : State) (x : FrameRx) : (s.setFrx x).mrx = s.mrx := rfl
@[simp] theorem State.setFrx_err (s : State) (x : FrameRx) : (s.setFrx x).err = s.err := rfl
@[simp] theorem State.setFrx_trace (s : State) (x : FrameRx) : (s.setFrx x).trace = s.trace := rfl
@[simp] theorem State.setFrx_input (s : State) (x : FrameRx) : (s.setFrx x).input = s.input := rfl
@[simp] theorem State.setFrx_sink (s : State) (x : FrameRx) : (s.setFrx x).sink = s.sink := rfl
@[simp] theorem State.setFrx_resets (s : State) (x : FrameRx) : (s.setFrx x).resets = s.resets := rfl
@[simp] theorem State.setFrx_held (s : State) (x : FrameRx) : (s.setFrx x).held = s.held := rfl

/-! ### `State.setFtx` -/

@[simp] theorem State.setFtx_cfg (s : State) (x : FrameTx) : (s.setFtx x).cfg = s.cfg := rfl
@[simp] theorem State.setFtx_crc (s : State) (x : FrameTx) : (s.setFtx x).crc = s.crc := rfl
@[simp] theorem State.setFtx_frx (s : State) (x : FrameTx) : (s.setFtx x).frx = s.frx := rfl
@[simp] theorem State.setFtx_ftx (s : State) (x : FrameTx) : (s.setFtx x).ftx = x := rfl
@[simp] theorem State.setFtx_aw (s : State) (x : FrameTx) : (s.setFtx x).aw = s.aw := rfl
@[simp] theorem State.setFtx_path (s : State) (x : FrameTx) : (s.setFtx x).path = s.path := rfl
@[simp] theorem State.setFtx_atxSeq (s : State) (x : FrameTx) : (s.setFtx x).atxSeq = s.atxSeq := rfl
@[simp] theorem State.setFtx_mrx (s : State) (x : FrameTx) : (s.setFtx x).mrx = s.mrx := rfl
@[simp] theorem State.setFtx_err (s : State) (x : FrameTx) : (s.setFtx x).err = s.err := rfl
@[simp] theorem State.setFtx_trace (s : State) (x : FrameTx) : (s.setFtx x).trace = s.trace := rfl
@[simp] theorem State.setFtx_input (s : State) (x : FrameTx) : (s.setFtx x).input = s.input := rfl
@[simp] theorem State.setFtx_sink (s : State) (x : FrameTx) : (s.setFtx x).sink = s.sink := rfl
@[simp] theorem State.setFtx_resets (s : State) (x : FrameTx) : (s.setFtx x).resets = s.resets := rfl
@[simp] theorem State.setFtx_held (s : State) (x : FrameTx) : (s.setFtx x).held = s.held := rfl

/-! ### `State.setAw` -/

@[simp] theorem State.setAw_cfg (s : State) (x : AckWindow) : (s.setAw x).cfg = s.cfg := rfl
@[simp] theorem State.setAw_crc (s : State) (x : AckWindow) : (s.setAw x).crc = s.crc := rfl
@[simp] theorem State.setAw_frx (s : State) (x : AckWindow) : (s.setAw x).frx = s.frx := rfl
@[simp] theorem State.setAw_ftx (s : State) (x : AckWindow) : (s.setAw x).ftx = s.ftx := rfl
@[simp] theorem State.setAw_aw (s : State) (x : AckWindow) : (s.setAw x).aw = x := rfl
@[simp] theorem State.setAw_path (s : State) (x : AckWindow) : (s.setAw x).path = s.path := rfl
@[simp] theorem State.setAw_atxSeq (s : State) (x : AckWindow) : (s.setAw x).atxSeq = s.atxSeq := rfl
@[simp] theorem State.setAw_mrx (s : State) (x : AckWindow) : (s.setAw x).mrx = s.mrx := rfl
@[simp] theorem State.setAw_err (s : State) (x : AckWindow) : (s.setAw x).err = s.err := rfl
@[simp] theorem State.setAw_trace (s : State) (x : AckWindow) : (s.setAw x).trace = s.trace := rfl
@[simp] theorem State.setAw_input (s : State) (x : AckWindow) : (s.setAw x).input = s.input := rfl
@[simp] theorem State.setAw_sink (s : State) (x : AckWindow) : (s.setAw x).sink = s.sink := rfl
@[simp] theorem State.setAw_resets (s : State) (x : AckWindow) : (s.setAw x).resets = s.resets := rfl
@[simp] theorem State.setAw_held (s : State) (x : AckWindow) : (s.setAw x).held = s.held := rfl

/-! ### `State.setPath` -/

@[simp] theorem State.setPath_cfg (s : State) (x : PathStatus) : (s.setPath x).cfg = s.cfg := rfl
@[simp] theorem State.setPath_crc (s : State) (x : PathStatus) : (s.setPath x).crc = s.crc := rfl
@[simp] theorem State.setPath_frx (s : State) (x : PathStatus) : (s.setPath x).frx = s.frx := rfl
@[simp] theorem State.setPath_ftx (s : State) (x : PathStatus) : (s.setPath x).ftx = s.ftx := rfl
@[simp] theorem State.setPath_aw (s : State) (x : PathStatus) : (s.setPath x).aw = s.aw := rfl
@[simp] theorem State.setPath_path (s : State) (x : PathStatus) : (s.setPath x).path = x := rfl
@[simp] theorem State.setPath_atxSeq (s : State) (x : PathStatus) : (s.setPath x).atxSeq = s.atxSeq := rfl
@[simp] theorem State.setPath_mrx (s : State) (x : PathStatus) : (s.setPath x).mrx = s.mrx := rfl
@[simp] theorem State.setPath_err (s : State) (x : PathStatus) : (s.setPath x).err = s.err := rfl
@[simp] theorem State.setPath_trace (s : State) (x : PathStatus) : (s.setPath x).trace = s.trace := rfl
@[simp] theorem State.setPath_input (s : State) (x : PathStatus) : (s.setPath x).input = s.input := rfl
@[simp] theorem State.setPath_sink (s : State) (x : PathStatus) : (s.setPath x).sink = s.sink := rfl
@[simp] theorem State.setPath_resets (s : State) (x : PathStatus) : (s.setPath x).resets = s.resets := rfl
@[simp] theorem State.setPath_held (s : State) (x : PathStatus) : (s.setPath x).held = s.held := rfl

/-! ### `State.setAtxSeq` -/

@[simp] theorem State.setAtxSeq_cfg (s : State) (x : Word32) : (s.setAtxSeq x).cfg = s.cfg := rfl
@[simp] theorem State.setAtxSeq_crc (s : State) (x : Word32) : (s.setAtxSeq x).crc = s.crc := rfl
@[simp] theorem State.setAtxSeq_frx (s : State) (x : Word32) : (s.setAtxSeq x).frx = s.frx := rfl
@[simp] theorem State.setAtxSeq_ftx (s : State) (x : Word32) : (s.setAtxSeq x).ftx = s.ftx := rfl
@[simp] theorem State.setAtxSeq_aw (s : State) (x : Word32) : (s.setAtxSeq x).aw = s.aw := rfl
@[simp] theorem State.setAtxSeq_path (s : State) (x : Word32) : (s.setAtxSeq x).path = s.path := rfl
@[simp] theorem State.setAtxSeq_atxSeq (s : State) (x : Word32) : (s.setAtxSeq x).atxSeq = x := rfl
@[simp] theorem State.setAtxSeq_mrx (s : State) (x : Word32) : (s.setAtxSeq x).mrx = s.mrx := rfl
@[simp] theorem State.setAtxSeq_err (s : State) (x : Word32) : (s.setAtxSeq x).err = s.err := rfl
@[simp] theorem State.setAtxSeq_trace (s : State) (x : Word32) : (s.setAtxSeq x).trace = s.trace := rfl
@[simp] theorem State.setAtxSeq_input (s : State) (x : Word32) : (s.setAtxSeq x).input = s.input := rfl
@[simp] theorem State.setAtxSeq_sink (s : State) (x : Word32) : (s.setAtxSeq x).sink = s.sink := rfl
@[simp] theorem State.setAtxSeq_resets (s : State) (x : Word32) : (s.setAtxSeq x).resets = s.resets := rfl
@[simp] theorem State.setAtxSeq_held (s : State) (x : Word32) : (s.setAtxSeq x).held = s.held := rfl

/-! ### `State.setMrx` -/

@[simp] theorem State.setMrx_cfg (s : State) (x : MsgRx) : (s.setMrx x).cfg = s.cfg := rfl
@[simp] theorem State.setMrx_crc (s : State) (x : MsgRx) : (s.setMrx x).crc = s.crc := rfl
@[simp] theorem State.setMrx_frx (s : State) (x : MsgRx) : (s.setMrx x).frx = s.frx := rfl
@[simp] theorem State.setMrx_ftx (s : State) (x : MsgRx) : (s.setMrx x).ftx = s.ftx := rfl
@[simp] theorem State.setMrx_aw (s : State) (x : MsgRx) : (s.setMrx x).aw = s.aw := rfl
@[simp] theorem State.setMrx_path (s : State) (x : MsgRx) : (s.setMrx x).path = s.path := rfl
@[simp] theorem State.setMrx_atxSeq (s : State) (x : MsgRx) : (s.setMrx x).atxSeq = s.atxSeq := rfl
@[simp] theorem State.setMrx_mrx (s : State) (x : MsgRx) : (s.setMrx x).mrx = x := rfl
@[simp] theorem State.setMrx_err (s : State) (x : MsgRx) : (s.setMrx x).err = s.err := rfl
@[simp] theorem State.setMrx_trace (s : State) (x : MsgRx) : (s.setMrx x).trace = s.trace := rfl
@[simp] theorem State.setMrx_input (s : State) (x : MsgRx) : (s.setMrx x).input = s.input := rfl
@[simp] theorem State.setMrx_sink (s : State) (x : MsgRx) : (s.setMrx x).sink = s.sink := rfl
@[simp] theorem State.setMrx_resets (s : State) (x : MsgRx) : (s.setMrx x).resets = s.resets := rfl
@[simp] theorem State.setMrx_held (s : State) (x : MsgRx) : (s.setMrx x).held = s.held := rfl

/-! ### `State.setErr` -/

@[simp] theorem State.setErr_cfg (s : State) (x : BitVec 7) : (s.setErr x).cfg = s.cfg := rfl
@[simp] theorem State.setErr_crc (s : State) (x : BitVec 7) : (s.setErr x).crc = s.crc := rfl
@[simp] theorem State.setErr_frx (s : State) (x : BitVec 7) : (s.setErr x).frx = s.frx := rfl
@[simp] theorem State.setErr_ftx (s : State) (x : BitVec 7) : (s.setErr x).ftx = s.ftx := rfl
@[simp] theorem State.setErr_aw (s : State) (x : BitVec 7) : (s.setErr x).aw = s.aw := rfl
@[simp] theorem State.setErr_path (s : State) (x : BitVec 7) : (s.setErr x).path = s.path := rfl
@[simp] theorem State.setErr_atxSeq (s : State) (x : BitVec 7) : (s.setErr x).atxSeq = s.atxSeq := rfl
@[simp] theorem State.setErr_mrx (s : State) (x : BitVec 7) : (s.setErr x).mrx = s.mrx := rfl
@[simp] theorem State.setErr_err (s : State) (x : BitVec 7) : (s.setErr x).err = x := rfl
@[simp] theorem State.setErr_trace (s : State) (x : BitVec 7) : (s.setErr x).trace = s.trace := rfl
@[simp] theorem State.setErr_input (s : State) (x : BitVec 7) : (s.setErr x).input = s.input := rfl
@[simp] theorem State.setErr_sink (s : State) (x : BitVec 7) : (s.setErr x).sink = s.sink := rfl
@[simp] theorem State.setErr_resets (s : State) (x : BitVec 7) : (s.setErr x).resets = s.resets := rfl
@[simp] theorem State.setErr_held (s : State) (x : BitVec 7) : (s.setErr x).held = s.held := rfl

/-! ### `State.setTrace` -/

@[simp] theorem State.setTrace_cfg (s : State) (x : List Event) : (s.setTrace x).cfg = s.cfg := rfl
@[simp] theorem State.setTrace_crc (s : State) (x : List Event) : (s.setTrace x).crc = s.crc := rfl
@[simp] theorem State.setTrace_frx (s : State) (x : List Event) : (s.setTrace x).frx = s.frx := rfl
@[simp] theorem State.setTrace_ftx (s : State) (x : List Event) : (s.setTrace x).ftx = s.ftx := rfl
@[simp] theorem State.setTrace_aw (s : State) (x : List Event) : (s.setTrace x).aw = s.aw := rfl
@[simp] theorem State.setTrace_path (s : State) (x : List Event) : (s.setTrace x).path = s.path := rfl
@[simp] theorem State.setTrace_atxSeq (s : State) (x : List Event) : (s.setTrace x).atxSeq = s.atxSeq := rfl
@[simp] theorem State.setTrace_mrx (s : State) (x : List Event) : (s.setTrace x).mrx = s.mrx := rfl
@[simp] theorem State.setTrace_err (s : State) (x : List Event) : (s.setTrace x).err = s.err := rfl
@[simp] theorem State.setTrace_trace (s : State) (x : List Event) : (s.setTrace x).trace = x := rfl
@[simp] theorem State.setTrace_input (s : State) (x : List Event) : (s.setTrace x).input = s.input := rfl
@[simp] theorem State.setTrace_sink (s : State) (x : List Event) : (s.setTrace x).sink = s.sink := rfl
@[simp] theorem State.setTrace_resets (s : State) (x : List Event) : (s.setTrace x).resets = s.resets := rfl
@[simp] theorem State.setTrace_held (s : State) (x : List Event) : (s.setTrace x).held = s.held := rfl

/-! ### `State.setInput` -/

@[simp] theorem State.setInput_cfg (s : State) (x : List Input) : (s.setInput x).cfg = s.cfg := rfl
@[simp] theorem State.setInput_crc (s : State) (x : List Input) : (s.setInput x).crc = s.crc := rfl
@[simp] theorem State.setInput_frx (s : State) (x : List Input) : (s.setInput x).frx = s.frx := rfl
@[simp] theorem State.setInput_ftx (s : State) (x : List Input) : (s.setInput x).ftx = s.ftx := rfl
@[simp] theorem State.setInput_aw (s : State) (x : List Input) : (s.setInput x).aw = s.aw := rfl
@[simp] theorem State.setInput_path (s : State) (x : List Input) : (s.setInput x).path = s.path := rfl
@[simp] theorem State.setInput_atxSeq (s : State) (x : List Input) : (s.setInput x).atxSeq = s.atxSeq := rfl
@[simp] theorem State.setInput_mrx (s : State) (x : List Input) : (s.setInput x).mrx = s.mrx := rfl
@[simp] theorem State.setInput_err (s : State) (x : List Input) : (s.setInput x).err = s.err := rfl
@[simp] theorem State.setInput_trace (s : State) (x : List Input) : (s.setInput x).trace = s.trace := rfl
@[simp] theorem State.setInput_input (s : State) (x : List Input) : (s.setInput x).input = x := rfl
@[simp] theorem State.setInput_sink (s : State) (x : List Input) : (s.setInput x).sink = s.sink := rfl
@[simp] theorem State.setInput_resets (s : State) (x : List Input) : (s.setInput x).resets = s.resets := rfl
@[simp] theorem State.setInput_held (s : State) (x : List Input) : (s.setInput x).held = s.held := rfl

/-! ### `State.setSink` -/

@[simp] theorem State.setSink_cfg (s : State) (x : SinkEnv) : (s.setSink x).cfg = s.cfg := rfl
@[simp] theorem State.setSink_crc (s : State) (x : SinkEnv) : (s.setSink x).crc = s.crc := rfl
@[simp] theorem State.setSink_frx (s : State) (x : SinkEnv) : (s.setSink x).frx = s.frx := rfl
@[simp] theorem State.setSink_ftx (s : State) (x : SinkEnv) : (s.setSink x).ftx = s.ftx := rfl
@[simp] theorem State.setSink_aw (s : State) (x : SinkEnv) : (s.setSink x).aw = s.aw := rfl
@[simp] theorem State.setSink_path (s : State) (x : SinkEnv) : (s.setSink x).path = s.path := rfl
@[simp] theorem State.setSink_atxSeq (s : State) (x : SinkEnv) : (s.setSink x).atxSeq = s.atxSeq := rfl
@[simp] theorem State.setSink_mrx (s : State) (x : SinkEnv) : (s.setSink x).mrx = s.mrx := rfl
@[simp] theorem State.setSink_err (s : State) (x : SinkEnv) : (s.setSink x).err = s.err := rfl
@[simp] theorem State.setSink_trace (s : State) (x : SinkEnv) : (s.setSink x).trace = s.trace := rfl
@[simp] theorem State.setSink_input (s : State) (x : SinkEnv) : (s.setSink x).input = s.input := rfl
@[simp] theorem State.setSink_sink (s : State) (x : SinkEnv) : (s.setSink x).sink = x := rfl
@[simp] theorem State.setSink_resets (s : State) (x : SinkEnv) : (s.setSink x).resets = s.resets := rfl
@[simp] theorem State.setSink_held (s : State) (x : SinkEnv) : (s.setSink x).held = s.held := rfl

/-! ### `State.setResets` -/

@[simp] theorem State.setResets_cfg (s : State) (x : Nat) : (s.setResets x).cfg = s.cfg := rfl
@[simp] theorem State.setResets_crc (s : State) (x : Nat) : (s.setResets x).crc = s.crc := rfl
@[simp] theorem State.setResets_frx (s : State) (x : Nat) : (s.setResets x).frx = s.frx := rfl
@[simp] theorem State.setResets_ftx (s : State) (x : Nat) : (s.setResets x).ftx = s.ftx := rfl
@[simp] theorem State.setResets_aw (s : State) (x : Nat) : (s.setResets x).aw = s.aw := rfl
@[simp] theorem State.setResets_path (s : State) (x : Nat) : (s.setResets x).path = s.path := rfl
@[simp] theorem State.setResets_atxSeq (s : State) (x : Nat) : (s.setResets x).atxSeq = s.atxSeq := rfl
@[simp] theorem State.setResets_mrx (s : State) (x : Nat) : (s.setResets x).mrx = s.mrx := rfl
@[simp] theorem State.setResets_err (s : State) (x : Nat) : (s.setResets x).err = s.err := rfl
@[simp] theorem State.setResets_trace (s : State) (x : Nat) : (s.setResets x).trace = s.trace := rfl
@[simp] theorem State.setResets_input (s : State) (x : Nat) : (s.setResets x).input = s.input := rfl
@[simp] theorem State.setResets_sink (s : State) (x : Nat) : (s.setResets x).sink = s.sink := rfl
@[simp] theorem State.setResets_resets (s : State) (x : Nat) : (s.setResets x).resets = x := rfl
@[simp] theorem State.setResets_held (s : State) (x : Nat) : (s.setResets x).held = s.held := rfl

/-! ### `State.setHeld` -/

@[simp] theorem State.setHeld_cfg (s : State) (x : Bool) : (s.setHeld x).cfg = s.cfg := rfl
@[simp] theorem State.setHeld_crc (s : State) (x : Bool) : (s.setHeld x).crc = s.crc := rfl
@[simp] theorem State.setHeld_frx (s : State) (x : Bool) : (s.setHeld x).frx = s.frx := rfl
@[simp] theorem State.setHeld_ftx (s : State) (x : Bool) : (s.setHeld x).ftx = s.ftx := rfl
@[simp] theorem State.setHeld_aw (s : State) (x : Bool) : (s.setHeld x).aw = s.aw := rfl
@[simp] theorem State.setHeld_path (s : State) (x : Bool) : (s.setHeld x).path = s.path := rfl
@[simp] theorem State.setHeld_atxSeq (s : State) (x : Bool) : (s.setHeld x).atxSeq = s.atxSeq := rfl
@[simp] theorem State.setHeld_mrx (s : State) (x : Bool) : (s.setHeld x).mrx = s.mrx := rfl
@[simp] theorem State.setHeld_err (s : State) (x : Bool) : (s.setHeld x).err = s.err := rfl
@[simp] theorem State.setHeld_trace (s : State) (x : Bool) : (s.setHeld x).trace = s.trace := rfl
@[simp] theorem State.setHeld_input (s : State) (x : Bool) : (s.setHeld x).input = s.input := rfl
@[simp] theorem State.setHeld_sink (s : State) (x : Bool) : (s.setHeld x).sink = s.sink := rfl
@[simp] theorem State.setHeld_resets (s : State) (x : Bool) : (s.setHeld x).resets = s.resets := rfl
@[simp] theorem State.setHeld_held (s : State) (x : Bool) : (s.setHeld x).held = x := rfl

end Sys2Proof.Machine
end

