-- ==== Sys2Proof/Laws/Ops.lean ====
section
/-!
SUPPORT. What each shared operation can do, said once in terms of the fields it replaces.
-/

namespace Sys2Proof.Machine

/-! ### Output and errors -/

@[simp] theorem State.event_eq (s : State) (e : Event) : s.event e = s.setTrace (s.trace ++ [e]) := rfl

@[simp] theorem State.emit_eq (s : State) (p : Port) (bs : List Byte) :
    s.emit p bs = s.setTrace (s.trace ++ bs.map (Event.byte p)) := rfl

@[simp] theorem State.respond_eq (s : State) (w : Word32) : s.respond w = s.setTrace (s.trace ++ [.rsp w]) := rfl

@[simp] theorem State.raise_eq (s : State) (f : ErrFlag) : s.raise f = s.setErr (errWith s.err f) := rfl

/-! ### Reading a register after a field is replaced -/

@[simp] theorem State.readReg_setTrace (s : State) (x : List Event) (r : Reg) :
    (s.setTrace x).readReg r = s.readReg r := by cases r <;> rfl

@[simp] theorem State.readReg_setInput (s : State) (x : List Input) (r : Reg) :
    (s.setInput x).readReg r = s.readReg r := by cases r <;> rfl

@[simp] theorem State.readReg_setSink (s : State) (x : SinkEnv) (r : Reg) :
    (s.setSink x).readReg r = s.readReg r := by cases r <;> rfl

@[simp] theorem State.readReg_setResets (s : State) (x : Nat) (r : Reg) :
    (s.setResets x).readReg r = s.readReg r := by cases r <;> rfl

@[simp] theorem State.readReg_setHeld (s : State) (x : Bool) (r : Reg) :
    (s.setHeld x).readReg r = s.readReg r := by cases r <;> rfl

theorem State.readReg_setErr (s : State) (x : BitVec 7) (r : Reg) (h : r ≠ .err) :
    (s.setErr x).readReg r = s.readReg r := by cases r <;> first | rfl | exact absurd rfl h

/-! ### The end of a wait -/

/-- `finishWait` replaces the window's state and status, the path flags of the slot and the trace; nothing else. -/
theorem State.finishWait_eq (s : State) (r : WaitResult) (status : Byte) :
    s.finishWait r status =
      ((s.setAw { s.aw with state := r.state, status := status }).setPath
        (s.path.record s.aw.slot (waitOk r status))).setTrace (s.trace ++ [.ackw s.aw.slot r status]) := rfl

/-! ### One write to the sink -/

/-- `pwm` replaces NODE_OK, the trace, the sink and the hold flag; nothing else. -/
theorem State.pwm_eq (s : State) (w : ChannelWrite) :
    s.pwm w =
      (((s.setTrace (s.trace ++ [.pwm s.cfg.bank w.addr w.ch w.duty s.sink.reply])).setSink s.sink.advance).setMrx
        { s.mrx with nodeOk := s.mrx.nodeOk && s.sink.reply != .fail }).setHeld (s.sink.reply == .never) := rfl

/-! ### Reset -/

@[simp] theorem State.resetStep_trace (s : State) : s.resetStep.trace = s.trace := rfl
@[simp] theorem State.resetStep_input (s : State) : s.resetStep.input = s.input := rfl
@[simp] theorem State.resetStep_sink (s : State) : s.resetStep.sink = s.sink := rfl
@[simp] theorem State.resetStep_resets (s : State) : s.resetStep.resets = s.resets + 1 := rfl
@[simp] theorem State.resetStep_held (s : State) : s.resetStep.held = false := rfl

end Sys2Proof.Machine
end

