-- ==== Sys2Proof/Laws/Effect.lean ====
section
/-!
SUPPORT. What an error and a response do, said once in the terms of Safety.lean, and the value an error leaves in ERR
(R12, R30, R152).
-/

namespace Sys2Proof.Machine

/-- Setting a flag sets the bit of its cause code. -/
theorem errWith_toNat (err : BitVec 7) (f : ErrFlag) : (errWith err f).toNat = err.toNat ||| 2 ^ f.code := by
  cases f <;> simp [errWith, ErrFlag.code]

/-- ERR reads as its seven bits. -/
theorem State.readReg_err_toNat (s : State) : (s.readReg .err).toNat = s.err.toNat := by
  have := s.err.isLt
  simp only [State.readReg, BitVec.toNat_setWidth]
  omega

/-- `raise Err(f)` shows in ERR. -/
theorem State.raise_err (s : State) (f : ErrFlag) :
    ((s.raise f).readReg .err).toNat = s.err.toNat ||| 2 ^ f.code := by
  rw [State.readReg_err_toNat]
  exact errWith_toNat s.err f

/-- `raise Err(f)` changes ERR and nothing else. -/
theorem State.raise_effect (s : State) (f : ErrFlag) : Effect [.err] [] s (s.raise f) :=
  ⟨fun r hr => State.readReg_setErr _ _ _ (by simpa using hr), ⟨rfl, rfl⟩, ⟨rfl, rfl, rfl, rfl⟩, by simp [Emits]⟩

/-- `Rsp(w)` appends one response and changes nothing. -/
theorem State.respond_effect (s : State) (w : Word32) : Effect [] [.rsp w] s (s.respond w) :=
  ⟨fun r _ => by simp, ⟨rfl, rfl⟩, ⟨rfl, rfl, rfl, rfl⟩, rfl⟩

/-- `Emit(p, bs)` appends the bytes in order and changes nothing. -/
theorem State.emit_effect (s : State) (p : Port) (bs : List Byte) : Effect [] (bs.map (Event.byte p)) s (s.emit p bs) :=
  ⟨fun r _ => by simp, ⟨rfl, rfl⟩, ⟨rfl, rfl, rfl, rfl⟩, rfl⟩

end Sys2Proof.Machine
end

