-- ==== Sys2Proof/Laws/PerInstr.lean ====
section
/-!
SUPPORT. A family of statements, one lemma per command: the word of a command meets its row of spec/opcode_table.json
(R59, R67).
-/

namespace Sys2Proof.Laws.Opcode

/-- A row of spec/opcode_table.json: the bits it fixes and their values. -/
structure TableRow where
  mask  : CmdWord
  value : CmdWord

/-- The opcode table's row of each command. -/
def tableRow : Instr → TableRow
  | .nop         => ⟨0xFFFFFFFFFFFF, 0x000000000000⟩
  | .cfgWr _ _   => ⟨0xFF0000000000, 0x010000000000⟩
  | .regRd _     => ⟨0xFF00FFFFFFFF, 0x020000000000⟩
  | .errClr _    => ⟨0xFFFFFFFFFF80, 0x030000000000⟩
  | .crcInit     => ⟨0xFFFFFFFFFFFF, 0x080000000000⟩
  | .crcByte _   => ⟨0xFFFFFFFFFF00, 0x090000000000⟩
  | .frxStart    => ⟨0xFFFFFFFFFFFF, 0x100000000000⟩
  | .frxByte _   => ⟨0xFFFFFFFFFF00, 0x110000000000⟩
  | .pbufRd _    => ⟨0xFFFFFFFFFE00, 0x120000000000⟩
  | .ftxStart _  => ⟨0xFFFF00000000, 0x180000000000⟩
  | .ftxByte _   => ⟨0xFFFFFFFFFF00, 0x190000000000⟩
  | .msgTx _     => ⟨0xFF00FFFFFFFF, 0x200000000000⟩
  | .ackSeq _    => ⟨0xFFFF00000000, 0x280000000000⟩
  | .ackTxRaw _  => ⟨0xFFFFFFFFFF00, 0x290000000000⟩
  | .ackTxFrame  => ⟨0xFFFFFFFFFFFF, 0x290100000000⟩
  | .ackTxMsg    => ⟨0xFFFFFFFFFFFF, 0x290200000000⟩
  | .awStart _ _ => ⟨0xFF0000000000, 0x300000000000⟩
  | .awByte _    => ⟨0xFFFFFFFFFF00, 0x310000000000⟩
  | .awTick      => ⟨0xFFFFFFFFFFFF, 0x320000000000⟩
  | .mrxStart    => ⟨0xFFFFFFFFFFFF, 0x400000000000⟩
  | .mrxByte _   => ⟨0xFFFFFFFFFF00, 0x410000000000⟩
  | .map _ _     => ⟨0xFFFFFFFFC000, 0x480000000000⟩

/-- The word of a command has the bits its row fixes. -/
def Statement (i : Instr) : Prop := encode i &&& (tableRow i).mask = (tableRow i).value

/-! ### Words and masks, field by field -/

theorem mkWord_and (o o' s s' : Byte) (w w' : Word32) :
    mkWord o s w &&& mkWord o' s' w' = mkWord (o &&& o') (s &&& s') (w &&& w') := by
  apply BitVec.eq_of_getLsbD_eq
  intro k _
  simp only [mkWord, BitVec.getLsbD_and, BitVec.getLsbD_append]
  split
  · rfl
  · split <;> rfl

/-- A field of n bits leaves the bits of IMM above it 0. -/
theorem field_above {n : Nat} (x : BitVec n) (m : Word32) (hm : m = (-1 : Word32) <<< n) : x.setWidth 32 &&& m = 0 := by
  subst hm
  apply BitVec.eq_of_getLsbD_eq
  intro k _
  by_cases h : k < n
  · simp [h]
  · simp [BitVec.getLsbD_of_ge x k (by omega)]

/-- The bits of IMM above both fields of `MAP` are 0. -/
theorem map_above (v : BitVec 4) (g : BitVec 10) :
    (g.setWidth 32 <<< 4 ||| v.setWidth 32) &&& (0xFFFFC000 : Word32) = 0 := by
  have hg : g.setWidth 32 <<< 4 &&& (0xFFFFC000 : Word32) = 0 := by
    have e : (0xFFFFC000 : Word32) = ((-1 : Word32) <<< 10) <<< 4 := by decide
    rw [e, ← BitVec.shiftLeft_and_distrib, field_above g _ rfl]
    rfl
  have hv : v.setWidth 32 &&& (0xFFFFC000 : Word32) = 0 := by
    have e : (0xFFFFC000 : Word32) = ((-1 : Word32) <<< 4) &&& 0xFFFFC000 := by decide
    rw [e, ← BitVec.and_assoc, field_above v _ rfl]
    rfl
  apply BitVec.eq_of_getLsbD_eq
  intro k hk
  have h1 := congrArg (fun x => x.getLsbD k) hg
  have h2 := congrArg (fun x => x.getLsbD k) hv
  simp only [BitVec.getLsbD_and, BitVec.getLsbD_or, Bool.and_or_distrib_right] at h1 h2 ⊢
  rw [h1, h2]
  simp

/-- Meeting a row, field by field. -/
theorem of_fields {i : Instr} {o s : Byte} {w : Word32} (o' s' : Byte) (w' : Word32) (he : encode i = mkWord o s w)
    (hm : (tableRow i).mask = mkWord o' s' w')
    (hv : (tableRow i).value = mkWord (o &&& o') (s &&& s') (w &&& w')) : Statement i := by
  rw [Statement, he, hm, hv, mkWord_and]

/-! ### One lemma per command -/

theorem nop : Statement (.nop) :=
  of_fields 0xFF 0xFF 0xFFFFFFFF rfl rfl rfl

theorem cfgWr (r : CfgReg) (value : Word32) : Statement (.cfgWr r value) :=
  of_fields 0xFF 0x00 0x00000000 rfl rfl (by simp [tableRow, mkWord])

theorem regRd (r : Reg) : Statement (.regRd r) :=
  of_fields 0xFF 0x00 0xFFFFFFFF rfl rfl (by simp [tableRow, mkWord])

theorem errClr (mask : BitVec 7) : Statement (.errClr mask) :=
  of_fields 0xFF 0xFF 0xFFFFFF80 rfl rfl (by rw [field_above mask 0xFFFFFF80 (by decide)]; rfl)

theorem crcInit : Statement (.crcInit) :=
  of_fields 0xFF 0xFF 0xFFFFFFFF rfl rfl rfl

theorem crcByte (b : Byte) : Statement (.crcByte b) :=
  of_fields 0xFF 0xFF 0xFFFFFF00 rfl rfl (by rw [field_above b 0xFFFFFF00 (by decide)]; rfl)

theorem frxStart : Statement (.frxStart) :=
  of_fields 0xFF 0xFF 0xFFFFFFFF rfl rfl rfl

theorem frxByte (b : Byte) : Statement (.frxByte b) :=
  of_fields 0xFF 0xFF 0xFFFFFF00 rfl rfl (by rw [field_above b 0xFFFFFF00 (by decide)]; rfl)

theorem pbufRd (idx : BitVec 9) : Statement (.pbufRd idx) :=
  of_fields 0xFF 0xFF 0xFFFFFE00 rfl rfl (by rw [field_above idx 0xFFFFFE00 (by decide)]; rfl)

theorem ftxStart (seq : Word32) : Statement (.ftxStart seq) :=
  of_fields 0xFF 0xFF 0x00000000 rfl rfl (by simp [tableRow, mkWord])

theorem ftxByte (b : Byte) : Statement (.ftxByte b) :=
  of_fields 0xFF 0xFF 0xFFFFFF00 rfl rfl (by rw [field_above b 0xFFFFFF00 (by decide)]; rfl)

theorem msgTx (h : Half) : Statement (.msgTx h) :=
  of_fields 0xFF 0x00 0xFFFFFFFF rfl rfl (by simp [tableRow, mkWord])

theorem ackSeq (seq : Word32) : Statement (.ackSeq seq) :=
  of_fields 0xFF 0xFF 0x00000000 rfl rfl (by simp [tableRow, mkWord])

theorem ackTxRaw (status : Byte) : Statement (.ackTxRaw status) :=
  of_fields 0xFF 0xFF 0xFFFFFF00 rfl rfl (by rw [field_above status 0xFFFFFF00 (by decide)]; rfl)

theorem ackTxFrame : Statement (.ackTxFrame) :=
  of_fields 0xFF 0xFF 0xFFFFFFFF rfl rfl rfl

theorem ackTxMsg : Statement (.ackTxMsg) :=
  of_fields 0xFF 0xFF 0xFFFFFFFF rfl rfl rfl

theorem awStart (k : Slot) (seq : Word32) : Statement (.awStart k seq) :=
  of_fields 0xFF 0x00 0x00000000 rfl rfl (by simp [tableRow, mkWord])

theorem awByte (b : Byte) : Statement (.awByte b) :=
  of_fields 0xFF 0xFF 0xFFFFFF00 rfl rfl (by rw [field_above b 0xFFFFFF00 (by decide)]; rfl)

theorem awTick : Statement (.awTick) :=
  of_fields 0xFF 0xFF 0xFFFFFFFF rfl rfl rfl

theorem mrxStart : Statement (.mrxStart) :=
  of_fields 0xFF 0xFF 0xFFFFFFFF rfl rfl rfl

theorem mrxByte (b : Byte) : Statement (.mrxByte b) :=
  of_fields 0xFF 0xFF 0xFFFFFF00 rfl rfl (by rw [field_above b 0xFFFFFF00 (by decide)]; rfl)

theorem map (v : BitVec 4) (g : BitVec 10) : Statement (.map v g) :=
  of_fields 0xFF 0xFF 0xFFFFC000 rfl rfl (by rw [map_above]; rfl)

end Sys2Proof.Laws.Opcode
end

