-- ==== Sys2Proof/Laws/Sink.lean ====
section
/-!
SUPPORT. What driving the boards can do: the sink's replies ahead of time, and what issuing a list of writes replaces
(R141, R144).
-/

namespace Sys2Proof.Machine

/-! ### The sink's replies -/

theorem SinkEnv.reply_eq (k : SinkEnv) : k.reply = k.replyAt 0 := by
  obtain ⟨script, draws⟩ := k
  cases script <;> simp [SinkEnv.reply, SinkEnv.replyAt]

theorem SinkEnv.replyAt_advance (k : SinkEnv) (n : Nat) : k.advance.replyAt n = k.replyAt (n + 1) := by
  obtain ⟨script, draws⟩ := k
  cases script with
  | nil => simp [SinkEnv.advance, SinkEnv.replyAt, Nat.add_comm, Nat.add_left_comm]
  | cons r rest =>
    show (SinkEnv.mk rest draws).replyAt n = _
    by_cases h : n < rest.length
    · rw [SinkEnv.replyAt, SinkEnv.replyAt, dif_pos h, dif_pos (by simpa using h)]
      rfl
    · rw [SinkEnv.replyAt, SinkEnv.replyAt, dif_neg h, dif_neg (by simpa using h)]
      simp

@[simp] theorem SinkEnv.after_zero (k : SinkEnv) : k.after 0 = k := by simp [SinkEnv.after]

theorem SinkEnv.after_advance (k : SinkEnv) (n : Nat) : k.advance.after n = k.after (n + 1) := by
  obtain ⟨script, draws⟩ := k
  cases script with
  | nil => simp [SinkEnv.advance, SinkEnv.after, Nat.add_comm, Nat.add_left_comm]
  | cons r rest => simp [SinkEnv.advance, SinkEnv.after]

/-! ### Issuing writes -/

/-- Issuing a write changes at most NODE_OK, the trace, the sink and the hold flag. -/
theorem State.issueWrite_frame (s : State) (w : ChannelWrite) :
    ∃ (ok held : Bool) (es : List Event) (k : SinkEnv),
      s.issueWrite w = (((s.setTrace (s.trace ++ es)).setSink k).setMrx { s.mrx with nodeOk := ok }).setHeld held := by
  unfold State.issueWrite
  split
  · exact ⟨s.mrx.nodeOk, s.held, [], s.sink, by simp [State.setTrace, State.setSink, State.setMrx, State.setHeld]⟩
  · split
    · exact ⟨s.mrx.nodeOk, s.held, [], s.sink, by simp [State.setTrace, State.setSink, State.setMrx, State.setHeld]⟩
    · exact ⟨_, _, _, _, State.pwm_eq s w⟩

/-- Issuing a list of writes changes at most NODE_OK, the trace, the sink and the hold flag. -/
theorem State.issueWrites_frame (ws : List ChannelWrite) (s : State) :
    ∃ (ok held : Bool) (es : List Event) (k : SinkEnv),
      ws.foldl State.issueWrite s =
        (((s.setTrace (s.trace ++ es)).setSink k).setMrx { s.mrx with nodeOk := ok }).setHeld held := by
  induction ws generalizing s with
  | nil => exact ⟨s.mrx.nodeOk, s.held, [], s.sink, by simp [State.setTrace, State.setSink, State.setMrx, State.setHeld]⟩
  | cons w ws ih =>
    obtain ⟨ok, held, es, k, h⟩ := State.issueWrite_frame s w
    obtain ⟨ok', held', es', k', h'⟩ := ih (s.issueWrite w)
    refine ⟨ok', held', es ++ es', k', ?_⟩
    rw [List.foldl_cons, h', h]
    simp [State.setTrace, State.setSink, State.setMrx, State.setHeld]

/-- Once a write is unanswered, no later write is issued. -/
theorem State.issueWrites_held (ws : List ChannelWrite) (s : State) (h : s.held = true) :
    ws.foldl State.issueWrite s = s := by
  induction ws with
  | nil => rfl
  | cons w ws ih => rw [List.foldl_cons, show s.issueWrite w = s by simp [State.issueWrite, h], ih]

/-- With SINK_STOP set, no write is issued while NODE_OK is 0. -/
theorem State.issueWrites_stopped (ws : List ChannelWrite) (s : State) (h : s.cfg.sinkStop = true)
    (hn : s.mrx.nodeOk = false) : ws.foldl State.issueWrite s = s := by
  induction ws with
  | nil => rfl
  | cons w ws ih => rw [List.foldl_cons, show s.issueWrite w = s by simp [State.issueWrite, h, hn], ih]

/-- A list of writes that are all answered, and none of them skipped: each is issued with its reply, and NODE_OK becomes
the running AND. -/
theorem State.issueWrites_all (ws : List ChannelWrite) (s : State) (h : s.held = false)
    (hr : ∀ n, n < ws.length → s.sink.replyAt n ≠ .never)
    (hs : s.cfg.sinkStop = false ∨ (s.mrx.nodeOk = true ∧ ∀ n, n < ws.length → s.sink.replyAt n = .ok)) :
    ∃ ok, (ok = true ↔ s.mrx.nodeOk = true ∧ ∀ n, n < ws.length → s.sink.replyAt n = .ok) ∧
      ws.foldl State.issueWrite s =
        ((s.setTrace (s.trace ++
          ws.mapIdx (fun i w => .pwm s.cfg.bank w.addr w.ch w.duty (s.sink.replyAt i)))).setSink
          (s.sink.after ws.length)).setMrx { s.mrx with nodeOk := ok } := by
  induction ws generalizing s with
  | nil => exact ⟨s.mrx.nodeOk, by simp, by simp [State.setTrace, State.setSink, State.setMrx]⟩
  | cons w ws ih =>
    have h0 : s.sink.replyAt 0 ≠ .never := hr 0 (by simp)
    have hi : s.issueWrite w = s.pwm w := by
      rcases hs with hs | hs <;> simp [State.issueWrite, h, hs]
    have hp := State.pwm_eq s w
    rw [SinkEnv.reply_eq] at hp
    obtain ⟨ok, ho, he⟩ := ih (s.pwm w) (by rw [hp]; simpa using h0)
      (fun n hn => by rw [hp]; simpa [SinkEnv.replyAt_advance] using hr (n + 1) (by simpa using hn))
      (by
        rw [hp]
        rcases hs with hs | ⟨hs, ha⟩
        · exact .inl (by simpa using hs)
        · refine .inr ⟨by simp [hs, ha 0 (by simp)], fun n hn => ?_⟩
          simpa [SinkEnv.replyAt_advance] using ha (n + 1) (by simpa using hn))
    refine ⟨ok, ?_, ?_⟩
    · rw [ho, hp]
      simp only [State.setHeld_mrx, State.setMrx_mrx, State.setHeld_sink, State.setMrx_sink, State.setSink_sink,
        SinkEnv.replyAt_advance, List.length_cons, Bool.and_eq_true, bne_iff_ne, ne_eq]
      constructor
      · rintro ⟨⟨a, b⟩, c⟩
        refine ⟨a, fun n hn => ?_⟩
        cases n with
        | zero => cases e : s.sink.replyAt 0 <;> simp_all
        | succ n => exact c n (by omega)
      · rintro ⟨a, b⟩
        exact ⟨⟨a, by rw [b 0 (by omega)]; decide⟩, fun n hn => b (n + 1) (by omega)⟩
    · have hb : (s.sink.replyAt 0 == SinkReply.never) = false := by simpa using h0
      have hl : SinkEnv.after s.sink.advance ws.length = s.sink.after (ws.length + 1) := SinkEnv.after_advance _ _
      rw [List.foldl_cons, hi, he, hp]
      simp only [State.setTrace, State.setSink, State.setMrx, State.setHeld, hb, hl, h, SinkEnv.replyAt_advance,
        List.mapIdx_cons, List.length_cons, List.append_assoc, List.cons_append, List.nil_append]

end Sys2Proof.Machine
end

