-- ==== Sys2Proof/Laws/Step.lean ====
section
/-!
SUPPORT. What one step can do, said once: every meaning answers a next state, and a step is one of four things.
-/

namespace Sys2Proof.Machine

/-- Every meaning answers a next state. -/
theorem exec_next (i : Instr) (s : State) : ∃ t, exec i s = .next t := by
  cases i <;> exact ⟨_, rfl⟩

/-! ### The reset input -/

/-- There is no reset to take exactly when none is presented. -/
theorem takeReset_eq_none {xs : List Input} : takeReset xs = none ↔ .reset ∉ xs := by
  induction xs with
  | nil => simp [takeReset]
  | cons x xs ih => cases x <;> simp [takeReset, ih]

/-- Taking the reset removes the first one and leaves every other input in its place. -/
theorem takeReset_append {pre : List Input} (rest : List Input) (h : .reset ∉ pre) :
    takeReset (pre ++ .reset :: rest) = some (pre ++ rest) := by
  induction pre with
  | nil => rfl
  | cons x pre ih => cases x <;> simp_all [takeReset]

/-- What was taken was the first reset. -/
theorem takeReset_eq_some {xs ys : List Input} (h : takeReset xs = some ys) :
    ∃ pre rest, .reset ∉ pre ∧ xs = pre ++ .reset :: rest ∧ ys = pre ++ rest := by
  have hm : .reset ∈ xs := by
    refine Decidable.byContradiction fun hm => ?_
    rw [takeReset_eq_none.2 hm] at h
    cases h
  obtain ⟨pre, rest, rfl, hp⟩ := List.eq_append_cons_of_mem hm
  rw [takeReset_append rest hp] at h
  exact ⟨pre, rest, hp, rfl, by cases h; rfl⟩

/-- The reset input is taken when it is the oldest input, and during a hold whatever waits in front of it. -/
theorem step_reset {s : State} {pre rest : List Input} (hp : .reset ∉ pre) (hh : s.held = true ∨ pre = [])
    (hi : s.input = pre ++ .reset :: rest) : step s = .next (s.setInput (pre ++ rest)).resetStep := by
  unfold step takeInput
  by_cases h : s.held = true
  · rw [if_pos h, hi, takeReset_append rest hp]
    rfl
  · obtain rfl := hh.resolve_left h
    rw [if_neg h, hi]
    rfl

/-! ### A step -/

/-- A step waits or is held; or it takes the reset input; or it takes an illegal word; or it runs a command. -/
theorem step_cases {s t : State} (h : step s = .next t) :
    t = s ∨
    (∃ pre rest, .reset ∉ pre ∧ (s.held = true ∨ pre = []) ∧ s.input = pre ++ .reset :: rest ∧
      t = (s.setInput (pre ++ rest)).resetStep) ∨
    (s.held = false ∧ ∃ cw rest, s.input = .command cw :: rest ∧
      (((∃ e, decode cw = .error e) ∧ t = (s.setInput rest).raise .illegal) ∨
        ∃ i, decode cw = .ok i ∧ exec i (s.setInput rest) = .next t)) := by
  unfold step takeInput at h
  split at h
  · rename_i hh
    split at h
    · rename_i ys hy
      obtain ⟨pre, rest, hp, hi, rfl⟩ := takeReset_eq_some hy
      exact .inr (.inl ⟨pre, rest, hp, .inl hh, hi, by cases h; rfl⟩)
    · exact .inl (by cases h; rfl)
  · rename_i hh
    split at h
    · exact .inl (by cases h; rfl)
    · rename_i x rest hx
      cases x with
      | reset => exact .inr (.inl ⟨[], rest, by simp, .inr rfl, hx, by cases h; rfl⟩)
      | command cw =>
        refine .inr (.inr ⟨by simpa using hh, cw, rest, hx, ?_⟩)
        simp only [runInput, runWord] at h
        split at h
        · rename_i i hi
          exact .inr ⟨i, hi, h⟩
        · rename_i e he
          exact .inl ⟨⟨e, he⟩, by cases h; rfl⟩

/-- What `frxByteNext` says of the inputs. -/
theorem State.frxByteNext_iff {s : State} :
    s.frxByteNext = true ↔
      s.held = false ∧ ∃ cw rest b, s.input = .command cw :: rest ∧ decode cw = .ok (.frxByte b) := by
  unfold State.frxByteNext
  split
  · rename_i cw rest hh hi
    split
    · rename_i b hd
      exact ⟨fun _ => ⟨hh, cw, rest, b, hi, hd⟩, fun _ => rfl⟩
    · rename_i hd
      refine ⟨nofun, fun ⟨_, cw', rest', b, hi', hd'⟩ => ?_⟩
      obtain ⟨rfl, rfl⟩ : cw' = cw ∧ rest' = rest := by simpa using hi'.symm.trans hi
      exact absurd hd' (hd b)
  · rename_i hn
    exact ⟨nofun, fun ⟨hh, cw, rest, _, hi, _⟩ => absurd hi (hn cw rest hh)⟩

/-- Outside a frame byte the two settings of a frame stay. -/
theorem State.frameSettings_kept {s : State} (h : s.frxByteNext = false) (init magic : Word16) :
    s.frameInit init = init ∧ s.verdictMagic magic = magic := by
  simp [State.frameInit, State.verdictMagic, h]

/-- At a frame byte each of the two settings of a frame is taken at its own offset (R93). -/
theorem State.frameSettings_byte {s : State} (h : s.frxByteNext = true) (init magic : Word16) :
    s.frameInit init = (if s.frx.cnt = 0 then s.cfg.crcInit else init) ∧
      s.verdictMagic magic = if s.frx.cnt = 519 then s.cfg.frameMagic else magic := by
  simp only [State.frameInit, State.verdictMagic, h, true_and]

/-- Presenting a word puts it first and leaves everything but the inputs and the hold flag. -/
theorem State.withFetchWord_eq (s : State) (nbits w : Nat) :
    s.withFetchWord nbits w = (s.setInput (.command (tableWord nbits w) :: s.input)).setHeld false := rfl

end Sys2Proof.Machine
end

