-- ==== Sys2Proof/Tests/Slice0.lean ====
section
/-!
SUPPORT. The writer's own tests: words written out from the encodings of spec/30_encoding.md, one-step outcomes from the
examples of the rules and from spec/95_test_vectors.md, ill-formed terms, and for every statement with hypotheses a
concrete case that meets them.
-/

namespace Sys2Proof.Tests

open Sys2Proof.Machine

/-! ### Helpers -/

/-- The configuration of start state E of spec/95_test_vectors.md. -/
def cfgE : CfgRegs := ⟨0xFFFF, 0xA55A, 0xC33C, 0xC33C, 0, 100, 0⟩

/-- Start state E of spec/95_test_vectors.md. -/
def stateE : State := State.reset.setCfg cfgE

/-- Whether a word decodes to a command. -/
def reads (w : Nat) (i : Instr) : Bool := decodeTableWord 48 w == some i

/-- Whether a word is refused. -/
def refuses (w : Nat) : Bool := (decodeTableWord 48 w).isNone

/-- The state after one word. -/
def after (w : Nat) (s : State) : State :=
  match step (s.withFetchWord 48 w) with
  | .next t => t
  | .fault _ => s
  | .refused _ => s

/-- A frame receiver at byte k. -/
def rxAt (k : BitVec 10) : State := stateE.setFrx { stateE.frx with cnt := k }

/-- The fields of a frame of seq 7. -/
def frameBody : FrameRx := { stateE.frx with magicRcvd := 0xA55A, seq := 7 }

/-- A receiver that holds that frame as valid. -/
def frameHeld : FrameRx :=
  { frameBody with
    valid := true, crc := crcOf 0xFFFF (heldBytes frameBody), crcRcvd := crcOf 0xFFFF (heldBytes frameBody) }

/-- A state with that frame and both paths ok. -/
def withFrame : State := (stateE.setFrx frameHeld).setPath ⟨true, true⟩

/-- A transmitter inside a frame. -/
def txAt (k : BitVec 10) : State := stateE.setFtx ⟨true, k, 0x8701⟩

/-- A wait for seq 5 in a slot, with the first n bytes of the window filled. -/
def waiting (slot : Slot) (n : BitVec 3) (win : Bytes 7) (elapsed limit : Word32) : State :=
  stateE.setAw ⟨.wait, slot, n, win, 0, 5, elapsed, limit⟩

/-- The acknowledgement A5 of spec/95_test_vectors.md. -/
def winA5 : Bytes 7 := #v[0x3C, 0xC3, 0x05, 0x00, 0x00, 0x00, 0x01]

/-- A message receiver at byte k of a message of seq 9. -/
def mrxAt (k : BitVec 9) : State := stateE.setMrx { stateE.mrx with cnt := k, seq := 9, nodeOk := true }

/-- A message receiver at its last byte, with what the sink will answer and SINK_STOP. -/
def lastByte (script : List SinkReply) (stop : BitVec 1) : State :=
  ((mrxAt 259).setSink ⟨script, 0⟩).setCfg { cfgE with ctrl := stop }

/-- A block held at an unanswered write, with a word presented. -/
def heldAtWrite : State := ((mrxAt 259).setHeld true).setInput [.command 0x000000000000]

/-- The same with reset presented behind the word. -/
def heldThenReset : State := (mrxAt 259).setHeld true |>.setInput [.command 0x000000000000, .reset]

/-! ### Ill-formed terms (R66): the values a configuration register cannot hold -/

theorem test_wellFormed_refuses_crcInit : ¬ Instr.WellFormed (.cfgWr .crcInit 0x10000) := by decide
theorem test_wellFormed_refuses_frameMagic : ¬ Instr.WellFormed (.cfgWr .frameMagic 0x10000) := by decide
theorem test_wellFormed_refuses_ackMagicRx : ¬ Instr.WellFormed (.cfgWr .ackMagicRx 0x10000) := by decide
theorem test_wellFormed_refuses_ackMagicTx : ¬ Instr.WellFormed (.cfgWr .ackMagicTx 0x10000) := by decide
theorem test_wellFormed_refuses_bank : ¬ Instr.WellFormed (.cfgWr .bank 2) := by decide
theorem test_wellFormed_refuses_ctrl : ¬ Instr.WellFormed (.cfgWr .ctrl 2) := by decide
theorem test_wellFormed_takes_timeout : Instr.WellFormed (.cfgWr .awTimeout 0xFFFFFFFF) := by decide

/-! ### Words written out from R59 and R67: OPC, SEL, IMM -/

theorem test_decode_nop : reads 0x000000000000 .nop = true := by decide
theorem test_decode_cfgWr : reads 0x0106000003E8 (.cfgWr .awTimeout 1000) = true := by decide
theorem test_decode_cfgWr_ctrl : reads 0x010700000001 (.cfgWr .ctrl 1) = true := by decide
theorem test_decode_regRd_crc : reads 0x021000000000 (.regRd .crc) = true := by decide
theorem test_decode_regRd_err : reads 0x023F00000000 (.regRd .err) = true := by decide
theorem test_decode_errClr : reads 0x03000000007F (.errClr 0x7F) = true := by decide
theorem test_decode_crcInit : reads 0x080000000000 .crcInit = true := by decide
theorem test_decode_crcByte : reads 0x090000000031 (.crcByte 0x31) = true := by decide
theorem test_decode_frxStart : reads 0x100000000000 .frxStart = true := by decide
theorem test_decode_frxByte : reads 0x1100000000A5 (.frxByte 0xA5) = true := by decide
theorem test_decode_pbufRd : reads 0x1200000001FF (.pbufRd 511) = true := by decide
theorem test_decode_ftxStart : reads 0x180000000001 (.ftxStart 1) = true := by decide
theorem test_decode_ftxByte : reads 0x190000000077 (.ftxByte 0x77) = true := by decide
theorem test_decode_msgTx : reads 0x200100000000 (.msgTx .half1) = true := by decide
theorem test_decode_ackSeq : reads 0x280012345678 (.ackSeq 0x12345678) = true := by decide
theorem test_decode_ackTxRaw : reads 0x290000000001 (.ackTxRaw 1) = true := by decide
theorem test_decode_ackTxFrame : reads 0x290100000000 .ackTxFrame = true := by decide
theorem test_decode_ackTxMsg : reads 0x290200000000 .ackTxMsg = true := by decide
theorem test_decode_awStart : reads 0x300112345678 (.awStart .slot1 0x12345678) = true := by decide
theorem test_decode_awByte : reads 0x310000000099 (.awByte 0x99) = true := by decide
theorem test_decode_awTick : reads 0x320000000000 .awTick = true := by decide
theorem test_decode_mrxStart : reads 0x400000000000 .mrxStart = true := by decide
theorem test_decode_mrxByte : reads 0x4100000000E0 (.mrxByte 0xE0) = true := by decide
theorem test_decode_map : reads 0x480000003FFE (.map 14 1023) = true := by decide

/-- The words of V1.5: every one is illegal. -/
theorem test_decode_refuses_V1_5 :
    ([0x040000000000, 0xFF0000000000, 0x000000000001, 0x000100000000, 0x011000000000, 0x010000000000,
      0x010500000002, 0x010100010000, 0x021700000000, 0x020100000001, 0x030000000080, 0x090000000100,
      0x120000000200, 0x180100000000, 0x200200000000, 0x290300000000, 0x290100000001, 0x300300000005,
      0x320000000001, 0x410100000000, 0x480000004000].all refuses) = true := by decide

/-- R60: five bytes are no word. -/
theorem test_decode_partial : decodeBytes [0, 0, 0, 0, 0] = .error .partialWord := by decide

/-- R72, R73: a line of assembly and two pseudo-instructions. -/
theorem test_assembly_map : assemblyLine (.map 14 1023) = "MAP 14, 1023" := by decide
theorem test_assembly_ticks : ticks 2 = [.awTick, .awTick] := by decide
theorem test_assembly_awAck :
    awAck 0xC33C 5 1 =
      [.awByte 0x3C, .awByte 0xC3, .awByte 0x05, .awByte 0x00, .awByte 0x00, .awByte 0x00, .awByte 0x01] := by decide

/-! ### One step, from the examples of the rules and spec/95_test_vectors.md -/

/-- V1.3. -/
theorem test_step_nop : (after 0x000000000000 stateE).trace = [] ∧ (after 0x000000000000 stateE).err = 0 := by decide
/-- V1.2. -/
theorem test_step_cfgWr : (after 0x0106000003E8 stateE).cfg.awTimeout = 1000 := by decide
/-- R82's example: the value does not fit. -/
theorem test_step_cfgWr_illegal :
    (after 0x010500000002 stateE).err = 1 ∧ (after 0x010500000002 stateE).cfg.bank = 0 := by decide
/-- V1.1: CFG.ACK_MAGIC_TX. -/
theorem test_step_regRd : (after 0x020400000000 stateE).trace = [.rsp 0xC33C] := by decide
/-- V6.1's packings: AW_STAT 0x172 of a match in slot 0 with status 1. -/
theorem test_regRd_awStat :
    (stateE.setAw ⟨.matched, .slot0, 7, winA5, 1, 5, 0, 100⟩).readReg .awStat = 0x172 := by decide
/-- V6.1: AW_WIN_LO and AW_WIN_HI. -/
theorem test_regRd_awWin :
    (stateE.setAw ⟨.matched, .slot0, 7, winA5, 1, 5, 0, 100⟩).readReg .awWinLo = 0x0005C33C ∧
    (stateE.setAw ⟨.matched, .slot0, 7, winA5, 1, 5, 0, 100⟩).readReg .awWinHi = 0x010000 := by decide
/-- R84's example: 0b0000101 with mask 0x01 leaves 0b0000100. -/
theorem test_step_errClr : (after 0x030000000001 (stateE.setErr 5)).err = 4 := by decide
/-- R84: an illegal `ERR_CLR` sets ILLEGAL and clears nothing. -/
theorem test_step_errClr_illegal : (after 0x030000000081 (stateE.setErr 4)).err = 5 := by decide
/-- R90. -/
theorem test_step_crcInit : (after 0x080000000000 (stateE.setCrc 0x1234)).crc = 0xFFFF := by decide
/-- R91's example. -/
theorem test_step_crcByte : (after 0x090000000031 stateE).crc = 0xC782 := by decide
/-- V2.1, and the corner cases of R89. -/
theorem test_crcUpdate :
    crcUpdate 0x0000 0x01 = 0x1021 ∧ crcUpdate 0xFFFF 0xFF = 0xFF00 ∧ crcUpdate 0x1234 0x56 = 0x3C40 := by decide
/-- R89, R17: the check value over "123456789". -/
theorem test_crcOf_check : crcOf 0xFFFF [0x31, 0x32, 0x33, 0x34, 0x35, 0x36, 0x37, 0x38, 0x39] = 0x29B1 := by
  decide +kernel
/-- R92's example. -/
theorem test_step_frxStart : (after 0x100000000000 (rxAt 300)).frx.cnt = 0 := by decide
/-- V3.11: a first byte 0x5A gives FRX_CNT 1, FMAGIC_RCVD 0x005A, FRX_CRC 0x1A4F, FSTAT 0 and PATH 0. -/
theorem test_step_frxByte_first :
    (after 0x11000000005A withFrame).frx.crc = 0x1A4F ∧ (after 0x11000000005A withFrame).frx.magicRcvd = 0x005A ∧
    (after 0x11000000005A withFrame).frx.valid = false ∧
    (after 0x11000000005A withFrame).readReg .path = 0 := by decide
/-- V3.5: the last byte of F1 with its CRC high byte flipped gives `FRAME(0,0,1,1)`. -/
theorem test_step_frxByte_last :
    (after 0x1100000000CD (stateE.setFrx { stateE.frx with
      cnt := 519, crc := 0xCC7C, magicRcvd := 0xA55A, seq := 1, crcRcvd := 0x007C })).trace =
      [.frame false false true 1] := by decide
/-- R95. -/
theorem test_step_pbufRd :
    (after 0x120000000000 (stateE.setFrx { stateE.frx with pbuf := Vector.replicate 512 0x77 })).trace =
      [.rsp 0x77] := by rfl
/-- V4.2: the header and FTX_CRC 0x8701. -/
theorem test_step_ftxStart :
    (after 0x180000000001 stateE).trace = [.byte .frameOut 0x5A, .byte .frameOut 0xA5, .byte .frameOut 0x01,
      .byte .frameOut 0x00, .byte .frameOut 0x00, .byte .frameOut 0x00] ∧
    (after 0x180000000001 stateE).ftx.crc = 0x8701 := by decide +kernel
/-- V4.3: FTX_BUSY. -/
theorem test_step_ftxStart_busy : (after 0x180000000002 (txAt 0)).err = 0x20 := by decide
/-- V4.4: FTX_IDLE. -/
theorem test_step_ftxByte_idle : (after 0x190000000011 stateE).err = 0x40 := by decide
/-- V4.7: the 512th byte of V4.1 emits `77 7C CC`; the CRC of the 517 bytes before it is a hand calculation. -/
theorem test_step_ftxByte_last :
    let t := after 0x190000000077 (stateE.setFtx ⟨true, 511, 0x8413⟩)
    t.trace = [.byte .frameOut 0x77, .byte .frameOut 0x7C, .byte .frameOut 0xCC] ∧ t.ftx.active = false := by
  decide +kernel
/-- V7.2: NOFRAME. -/
theorem test_step_msgTx_noFrame :
    (after 0x200000000000 stateE).err = 0x08 ∧ (after 0x200000000000 stateE).trace = [] := by decide
/-- R125's example: MSG1, seq 1, then 256 bytes 0x77. -/
theorem test_step_msgTx :
    (after 0x200100000000 (stateE.setFrx { stateE.frx with
      pbuf := Vector.replicate 512 0x77, valid := true, seq := 1 })).trace =
      ([0x01, 0x00, 0x00, 0x00] ++ List.replicate 256 0x77).map (.byte .msg1) := by
  decide +kernel
/-- R109's example. -/
theorem test_step_ackSeq : (after 0x280012345678 stateE).atxSeq = 0x12345678 := by decide
/-- R112's example. -/
theorem test_step_ackTxRaw :
    (after 0x290000000001 (stateE.setAtxSeq 0x12345678)).trace =
      [.byte .ackOut 0x3C, .byte .ackOut 0xC3, .byte .ackOut 0x78, .byte .ackOut 0x56, .byte .ackOut 0x34,
       .byte .ackOut 0x12, .byte .ackOut 0x01] := by decide
/-- R110's example: seq 7, one path failed. -/
theorem test_step_ackTxFrame :
    (after 0x290100000000 (withFrame.setPath ⟨true, false⟩)).trace =
      [.byte .ackOut 0x3C, .byte .ackOut 0xC3, .byte .ackOut 0x07, .byte .ackOut 0x00, .byte .ackOut 0x00,
       .byte .ackOut 0x00, .byte .ackOut 0x00] := by decide
/-- V5.3: NOFRAME. -/
theorem test_step_ackTxFrame_noFrame : (after 0x290100000000 stateE).err = 0x08 := by decide
/-- R111's example. -/
theorem test_step_ackTxMsg :
    (after 0x290200000000 (stateE.setMrx { stateE.mrx with seq := 0x01020304, nodeOk := true, done := true })).trace =
      [.byte .ackOut 0x3C, .byte .ackOut 0xC3, .byte .ackOut 0x04, .byte .ackOut 0x03, .byte .ackOut 0x02,
       .byte .ackOut 0x01, .byte .ackOut 0x01] := by decide
/-- V5.4: NOMSG. -/
theorem test_step_ackTxMsg_noMsg : (after 0x290200000000 stateE).err = 0x10 := by decide
/-- R114's example, with the timeout of state E. -/
theorem test_step_awStart :
    (after 0x300000000005 stateE).aw = ⟨.wait, .slot0, 0, Vector.replicate 7 0, 0, 5, 0, 100⟩ := by decide
/-- V6.11: a zero timeout. -/
theorem test_step_awStart_zero :
    (after 0x300000000005 (stateE.setCfg { cfgE with awTimeout := 0 })).trace = [.ackw .slot0 .timeout 0] := by decide
/-- V6.8: status 2 matches and fails the path. -/
theorem test_step_awByte_match :
    (after 0x310000000002 (waiting .slot0 6 winA5 0 100)).trace = [.ackw .slot0 .matched 2] ∧
    (after 0x310000000002 (waiting .slot0 6 winA5 0 100)).readReg .path = 0 := by decide
/-- V6.6: the magic 0xC33D slides: AW_STAT 0x61, AW_WIN_LO 0x000005C3, AW_WIN_HI 0x010100. -/
theorem test_step_awByte_slide :
    let t := after 0x310000000001 (waiting .slot0 6 #v[0x3D, 0xC3, 0x05, 0, 0, 0, 0] 0 100)
    t.readReg .awStat = 0x61 ∧ t.readReg .awWinLo = 0x000005C3 ∧ t.readReg .awWinHi = 0x010100 := by decide
/-- R117's example: limit 2, elapsed 1. -/
theorem test_step_awTick :
    (after 0x320000000000 (waiting .slot0 0 winA5 1 2)).aw.elapsed = 2 ∧
    (after 0x320000000000 (waiting .slot0 0 winA5 1 2)).aw.state = .timeout := by decide
/-- V6.18: a tick outside a wait. -/
theorem test_step_awTick_idle : (after 0x320000000000 stateE).readReg .awElapsed = 0 := by decide
/-- R139's example. -/
theorem test_step_mrxStart : (after 0x400000000000 (mrxAt 100)).mrx.cnt = 0 := by decide
/-- V9.7: byte 0 of a message sets NODE_OK, clears MDONE and starts MSEQ. -/
theorem test_step_mrxByte_first :
    (after 0x410000000001 (mrxAt 0)).readReg .mstat = 1 ∧ (after 0x410000000001 (mrxAt 0)).mrx.seq = 1 := by decide
/-- V9.2: the first four writes of a message whose first payload byte is 0xE0. -/
theorem test_messageWrites :
    magnetWrites ((Vector.replicate 256 0x77).set 0 0xE0) 0 = [⟨0x40, 0, 0⟩, ⟨0x40, 1, 4095⟩] ∧
    magnetWrites ((Vector.replicate 256 0x77).set 0 0xE0) 1 = [⟨0x40, 2, 4095⟩, ⟨0x40, 3, 0⟩] := ⟨rfl, rfl⟩
/-- R135's two examples. -/
theorem test_step_map :
    (after 0x480000003FFE stateE).trace = [.rsp 0xFF000FFF] ∧
    (after 0x480000000000 stateE).trace = [.rsp 0x40FFF000] := by decide
/-- The whole table of R134. -/
theorem test_mapDuty :
    (List.range 16).map (fun v => mapDuty (BitVec.ofNat 4 v)) =
      [(0, 4095), (0, 3510), (0, 2925), (0, 2340), (0, 1755), (0, 1170), (0, 585), (0, 0)] ++
      [(585, 0), (1170, 0), (1755, 0), (2340, 0), (2925, 0), (3510, 0), (4095, 0), (0, 0)] := by decide
/-- R146's examples. -/
theorem test_boardWrite :
    (boardWrite 0 585).2 = [0x00, 0x00, 0x49, 0x02] ∧ (boardWrite 0 4095).2 = [0x00, 0x00, 0xFF, 0x0F] := by decide

/-! ### A case for every statement with hypotheses -/

/-- Start state E meets the ranges of R35. -/
theorem stateE_inRange : stateE.InRange := by
  constructor <;> decide

/-- A receiver at any byte up to 519 meets them. -/
theorem rxAt_inRange (k : BitVec 10) (h : k.toNat ≤ 519) : (rxAt k).InRange :=
  { stateE_inRange with frxCnt := h }

/-- A sink with no scripted reply always answers. -/
theorem free_answers (draws n : Nat) : (SinkEnv.mk [] draws).replyAt n ≠ .never := by
  have h : ¬ n < ([] : List SinkReply).length := by simp
  rw [SinkEnv.replyAt, dif_neg h]
  split <;> decide

/-- A script's replies. -/
theorem scripted (r : SinkReply) (m n : Nat) (h : n < m) : (SinkEnv.mk (List.replicate m r) 0).replyAt n = r := by
  simp [SinkEnv.replyAt, h]

theorem test_hyp_DecodeOfEncodeIsIdentity :
    Instr.WellFormed (.cfgWr .crcInit 0xFFFF) ∧ Instr.WellFormed (.cfgWr .bank 1) ∧
    Instr.WellFormed (.map 15 1023) := by decide

theorem test_hyp_EncodeOfDecodeIsIdentity : decode 0x480000003FFE = .ok (.map 14 1023) := by rfl

theorem test_hyp_IllegalWordOnlySetsIllegal :
    (stateE.setInput [.command 0x040000000000]).held = false ∧
    (stateE.setInput [.command 0x040000000000]).input = .command 0x040000000000 :: [] ∧
    ¬ Legal 0x040000000000 ∧ ¬ Legal 0x480000004000 ∧ Legal 0x480000003FFF := by
  refine ⟨rfl, rfl, ?_, ?_, ?_⟩ <;> (unfold Legal; decide)

/-- `WordsOf`: a word that is a command, and a word of the same opcode that is none. -/
theorem test_hyp_WordsOf :
    Instr.WellFormed (.map 14 1023) ∧ opcOf 0x480000003FFE = 0x48 ∧
    fieldsOf (.map 14 1023) = (0x48, (selOf 0x480000003FFE).toNat, (immOf 0x480000003FFE).toNat) ∧
    (∀ i : Instr, i.WellFormed → fieldsOf i ≠ (0x32, 0, 1)) ∧ opcOf 0x320000000001 = 0x32 := by
  refine ⟨rfl, by decide, by decide, fun i _ => ?_, by decide⟩
  cases i <;> simp [fieldsOf]

theorem test_hyp_LinkBytesCarryWholeWords : ([] : List Byte).length < 6 ∧ [(0 : Byte), 0, 0, 0, 0].length < 6 := by decide

theorem test_hyp_StepRunsDecodedCommand :
    (stateE.setInput [.command 0x320000000000]).held = false ∧
    (stateE.setInput [.command 0x320000000000]).input = .command 0x320000000000 :: [] ∧
    decode 0x320000000000 = .ok .awTick := ⟨rfl, rfl, rfl⟩

theorem test_hyp_WaitingAndHoldingChangeNothing :
    stateE.input = [] ∧ heldAtWrite.held = true ∧ .reset ∉ heldAtWrite.input := ⟨rfl, rfl, by decide⟩

theorem test_hyp_TraceOnlyGrows : ∃ t, step (stateE.setInput [.command 0x021000000000]) = .next t := ⟨_, rfl⟩

theorem test_hyp_RangesKeptByEveryStep :
    (rxAt 519).InRange ∧ ∃ t, step ((rxAt 519).setInput []) = .next t := ⟨rxAt_inRange _ (by decide), ⟨_, rfl⟩⟩

theorem test_hyp_ValidFrameStaysSound :
    withFrame.InRange ∧ withFrame.FrameSound 0xFFFF withFrame.frx.magicRcvd ∧ withFrame.frx.valid = true ∧
      ∃ t, step withFrame = .next t := by
  refine ⟨{ stateE_inRange with frxCnt := by decide, errBits := by decide },
    ⟨fun h => absurd h (by decide), fun _ => ?_⟩, rfl, ⟨_, rfl⟩⟩
  have e : withFrame.frx = frameHeld := by simp only [withFrame, State.setPath_frx, State.setFrx_frx]
  have held : heldBytes frameHeld = heldBytes frameBody := by simp only [frameHeld, heldBytes]
  rw [e, held]
  simp only [frameHeld, and_true]
  exact ⟨rfl, rfl, rfl⟩

theorem test_hyp_MessageStaysSound :
    (mrxAt 4).InRange ∧ (mrxAt 4).MessageSound ∧ ∃ t, step (mrxAt 4) = .next t := by
  refine ⟨{ stateE_inRange with mrxCnt := by decide }, ⟨?_, ?_, ?_⟩, ⟨_, rfl⟩⟩ <;> decide

theorem test_hyp_MessageStaysSound_held : ((mrxAt 259).setHeld true).MessageSound := by
  constructor <;> decide

/-- Between steps; and during a hold, with a word in front of the reset. -/
theorem test_hyp_ResetStepSetsResetValues :
    (.reset ∉ ([] : List Input) ∧ (stateE.setInput [.reset]).input = [] ++ .reset :: []) ∧
    (.reset ∉ [Input.command 0x000000000000] ∧ heldThenReset.held = true ∧
      heldThenReset.input = [.command 0x000000000000] ++ .reset :: []) :=
  ⟨⟨by decide, rfl⟩, by decide, rfl, rfl⟩

/-- R169: a held message is abandoned by reset, and the word in front stays presented. -/
theorem test_reset_ends_a_hold :
    ∃ t, step heldThenReset = .next t ∧ t.held = false ∧ t.mrx.cnt = 0 ∧ t.trace = [] ∧
      t.input = [.command 0x000000000000] := ⟨_, rfl, rfl, rfl, rfl, rfl⟩

theorem test_hyp_ConfigWrittenOnlyByCfgWr :
    (∀ r v, Instr.nop ≠ .cfgWr r v) ∧ exec .nop stateE = .next stateE ∧ ¬ CfgReg.Fits .ctrl 2 ∧
    ¬ CfgReg.Fits .crcInit 0x10000 := ⟨nofun, rfl, by decide, by decide⟩

theorem test_hyp_ErrFlagsFollowTheirTable :
    Instr.WellFormed .ackTxMsg ∧ raisedBy stateE .ackTxMsg = some .noMsg ∧
    raisedBy stateE (.awByte 0) = some .awStray ∧ raisedBy (waiting .slot0 0 winA5 0 100) (.awStart .slot1 0) = some .awBusy ∧
    raisedBy stateE .ackTxFrame = some .noFrame ∧ raisedBy (txAt 0) (.ftxStart 0) = some .ftxBusy ∧
    raisedBy stateE (.ftxByte 0) = some .ftxIdle ∧
    raisedBy stateE .awTick = none ∧ (∀ mask, Instr.awTick ≠ .errClr mask) ∧ (∃ t, exec .ackTxMsg stateE = .next t) ∧
    ∃ t, exec (.errClr 1) (stateE.setErr 1) = .next t ∧ (stateE.setErr 1).err.getLsbD 0 = true ∧
      t.err.getLsbD 0 = false := ⟨rfl, rfl, rfl, rfl, rfl, rfl, rfl, rfl, nofun, ⟨_, rfl⟩, ⟨_, rfl, rfl, rfl⟩⟩

theorem test_hyp_RaisingHasNoOtherEffect :
    Instr.WellFormed (.ftxByte 0) ∧ raisedBy stateE (.ftxByte 0) = some .ftxIdle ∧
    ∃ t, exec (.ftxByte 0) stateE = .next t := ⟨rfl, rfl, ⟨_, rfl⟩⟩

theorem test_hyp_CorruptFrameIsNeverForwarded :
    stateE.frx.valid = false ∧ (∃ t, exec (.msgTx .half0) stateE = .next t) ∧ ∃ t, exec .ackTxFrame stateE = .next t :=
  ⟨rfl, ⟨_, rfl⟩, ⟨_, rfl⟩⟩

theorem test_hyp_WritesOnlyAtMessageEnd : ∃ t, exec (.mrxByte 0x77) (mrxAt 258) = .next t := ⟨_, rfl⟩

theorem test_hyp_CrcEngineIsIndependent :
    Instr.frxStart ≠ .crcInit ∧ (∀ b, Instr.frxStart ≠ .crcByte b) ∧ Instr.frxStart ≠ .regRd .crc ∧
    (∃ t, exec .frxStart stateE = .next t) ∧ (∃ b, Instr.crcByte 0x31 = .crcByte b) ∧
    ∃ t, exec (.crcByte 0x31) stateE = .next t := ⟨nofun, nofun, nofun, ⟨_, rfl⟩, ⟨_, rfl⟩, ⟨_, rfl⟩⟩

theorem test_hyp_ReadsAreIdempotent :
    (∃ r, Instr.regRd .err = .regRd r) ∧ (∃ idx, Instr.pbufRd 0 = .pbufRd idx) ∧
    ∃ v g, Instr.map 0 0 = .map v g := ⟨⟨_, rfl⟩, ⟨_, rfl⟩, ⟨_, _, rfl⟩⟩

theorem test_hyp_WaitEndsOnlyByMatchOrTimeout :
    (waiting .slot0 6 winA5 0 100).aw.state = .wait ∧
    (∃ t, step ((waiting .slot0 6 winA5 0 100).setInput [.command 0x310000000001]) = .next t ∧ t.aw.state = .matched) ∧
    (∃ t, step ((waiting .slot0 6 winA5 1 2).setInput [.command 0x320000000000]) = .next t ∧ t.aw.state = .timeout) ∧
    ∃ t, step ((waiting .slot0 6 winA5 1 2).setInput [.reset]) = .next t ∧ t.aw.state = .idle :=
  ⟨rfl, ⟨_, rfl, rfl⟩, ⟨_, rfl, rfl⟩, ⟨_, rfl, rfl⟩⟩

theorem test_hyp_PathSucceedsOnlyByAcceptedAck :
    (∃ t, exec (.awByte 1) (waiting .slot0 6 winA5 0 100) = .next t ∧ t.path.ok0 = true) ∧
    ∃ t, exec (.awByte 1) (waiting .slot1 6 winA5 0 100) = .next t ∧ t.path.ok1 = true := ⟨⟨_, rfl, rfl⟩, ⟨_, rfl, rfl⟩⟩

theorem test_hyp_CfgWrWritesOneRegister :
    CfgReg.Fits .bank 1 ∧ ¬ CfgReg.Fits .bank 2 ∧ CfgReg.Fits .frameMagic 0xFFFF ∧ ¬ CfgReg.Fits .frameMagic 0x10000 ∧
    CfgReg.Fits .awTimeout 0xFFFFFFFF := by decide

theorem test_hyp_OneWrongByteChangesTheCrc : (0x76 : Byte) ≠ 0x77 := by decide

/-- Every clause at its boundary offsets. -/
theorem test_hyp_FrxByteReceivesAFrame :
    (rxAt 0).InRange ∧ (rxAt 1).InRange ∧ (rxAt 2).InRange ∧ (rxAt 3).InRange ∧ (rxAt 5).InRange ∧ (rxAt 6).InRange ∧
    (rxAt 517).InRange ∧ (rxAt 518).InRange ∧ (rxAt 519).InRange ∧ (rxAt 519).frx.cnt.toNat = 519 := by
  refine ⟨?_, ?_, ?_, ?_, ?_, ?_, ?_, ?_, ?_, rfl⟩ <;> exact rxAt_inRange _ (by decide)

theorem test_hyp_FtxStartOpensAFrame : stateE.ftx.active = false ∧ (txAt 0).ftx.active = true := ⟨rfl, rfl⟩

theorem test_hyp_FtxByteSendsPayload :
    (txAt 510).ftx.active = true ∧ (txAt 510).ftx.cnt ≠ 511 ∧ (txAt 511).ftx.active = true ∧ (txAt 511).ftx.cnt = 511 ∧
    stateE.ftx.active = false := by decide

theorem test_hyp_TransmitterEmitsReferenceEncoding :
    stateE.ftx.active = false ∧ (List.replicate 512 (0x77 : Byte)).length = 512 := ⟨rfl, List.length_replicate⟩

theorem test_hyp_ReceiverAcceptsReferenceEncoding :
    stateE.frx.cnt = 0 ∧ (List.replicate 512 (0x77 : Byte)).length = 512 := ⟨rfl, List.length_replicate⟩

theorem test_hyp_AckTxFrameReportsBothPaths :
    withFrame.frx.valid = true ∧ withFrame.path = ⟨true, true⟩ ∧ stateE.frx.valid = false := ⟨rfl, rfl, rfl⟩

theorem test_hyp_AckTxMsgReportsTheNode :
    (stateE.setMrx { stateE.mrx with done := true }).mrx.done = true ∧ stateE.mrx.done = false := ⟨rfl, rfl⟩

theorem test_hyp_FinishRecordsTheResult :
    (waiting .slot0 6 winA5 0 100).aw.slot = .slot0 ∧ (waiting .slot1 6 winA5 0 100).aw.slot = .slot1 ∧
    (waiting .slot2 6 winA5 0 100).aw.slot = .slot2 := ⟨rfl, rfl, rfl⟩

theorem test_hyp_AwStartArmsAWait :
    stateE.aw.state ≠ .wait ∧ stateE.cfg.awTimeout ≠ 0 ∧
    (stateE.setCfg { cfgE with awTimeout := 0 }).aw.state ≠ .wait ∧
    (stateE.setCfg { cfgE with awTimeout := 0 }).cfg.awTimeout = 0 ∧
    (waiting .slot0 0 winA5 0 100).aw.state = .wait := by decide

/-- Every clause: a byte that does not fill the window, one that fills a matching and one that fills a mismatching one. -/
theorem test_hyp_AwByteFillsAndChecks :
    ((waiting .slot0 5 winA5 0 100).aw.state = .wait ∧ (waiting .slot0 5 winA5 0 100).aw.n.toNat < 6) ∧
    (let s := waiting .slot0 6 winA5 0 100
     s.aw.state = .wait ∧ s.aw.n.toNat = 6 ∧ s.aw.win[0] = s.cfg.ackMagicRx.extractLsb' 0 8 ∧
      s.aw.win[1] = s.cfg.ackMagicRx.extractLsb' 8 8 ∧
      fromLe [s.aw.win[2], s.aw.win[3], s.aw.win[4], s.aw.win[5]] = s.aw.exp.toNat) ∧
    (let s := waiting .slot0 6 #v[0x99, 0x3C, 0xC3, 0x05, 0, 0, 0] 0 100
     s.aw.state = .wait ∧ s.aw.n.toNat = 6 ∧ ¬ s.aw.win[0] = s.cfg.ackMagicRx.extractLsb' 0 8) ∧
    stateE.aw.state ≠ .wait := by decide

theorem test_hyp_AwTickCountsToTheLimit :
    (let s := waiting .slot0 0 winA5 0 2
     s.aw.state = .wait ∧ s.aw.elapsed.toNat < s.aw.limit.toNat ∧ s.aw.elapsed.toNat + 1 < s.aw.limit.toNat) ∧
    (let s := waiting .slot0 0 winA5 1 2
     s.aw.state = .wait ∧ s.aw.elapsed.toNat < s.aw.limit.toNat ∧ s.aw.elapsed.toNat + 1 = s.aw.limit.toNat) ∧
    stateE.aw.state ≠ .wait := by decide

theorem test_hyp_EmptyStreamTimesOutOnTheLimitthTick :
    stateE.aw.state ≠ .wait ∧ stateE.cfg.awTimeout ≠ 0 ∧ 0 < stateE.cfg.awTimeout.toNat ∧
    100 = stateE.cfg.awTimeout.toNat := by decide

theorem test_hyp_StrayLeadingByteIsSkipped :
    let s := waiting .slot0 0 winA5 0 100
    s.aw.state = .wait ∧ s.aw.n = 0 ∧
      ¬ (((0x99 : Byte) :: ackBytes s.cfg.ackMagicRx s.aw.exp 1).take 6 =
        (ackBytes s.cfg.ackMagicRx s.aw.exp 1).take 6) := by decide

theorem test_hyp_MsgTxSendsOneHalf : withFrame.frx.valid = true ∧ stateE.frx.valid = false := ⟨rfl, rfl⟩

/-- Every clause at its boundary offsets. -/
theorem test_hyp_MrxByteStoresAMessage :
    (mrxAt 0).mrx.cnt.toNat = 0 ∧ (mrxAt 1).mrx.cnt.toNat = 1 ∧ (mrxAt 3).mrx.cnt.toNat = 3 ∧
    (mrxAt 4).mrx.cnt.toNat = 4 ∧ (mrxAt 258).mrx.cnt.toNat < 259 := by decide

/-- With SINK_STOP = 0 and free answers; and with SINK_STOP = 1 and every answer ok. -/
theorem test_hyp_LastByteAppliesTheMessage :
    ((lastByte [] 0).held = false ∧ (lastByte [] 0).mrx.cnt = 259 ∧
      (∀ n, n < 1024 → (lastByte [] 0).sink.replyAt n ≠ .never) ∧ (lastByte [] 0).cfg.ctrl = 0) ∧
    (let s := lastByte (List.replicate 1024 .ok) 1
     s.held = false ∧ s.mrx.cnt = 259 ∧ (∀ n, n < 1024 → s.sink.replyAt n ≠ .never) ∧ s.mrx.nodeOk = true ∧
      ∀ n, n < 1024 → s.sink.replyAt n = .ok) := by
  refine ⟨⟨rfl, rfl, fun n _ => free_answers 0 n, rfl⟩, rfl, rfl, fun n h => ?_, rfl, fun n h => scripted .ok 1024 n h⟩
  exact ne_of_eq_of_ne (scripted .ok 1024 n h) (by decide)

/-- V9.5: the sink fails the third write. -/
theorem test_hyp_SinkStopSkipsAfterTheFirstFailure :
    let s := lastByte [.ok, .ok, .fail] 1
    s.held = false ∧ s.mrx.cnt = 259 ∧ s.cfg.ctrl = 1 ∧ s.mrx.nodeOk = true ∧ 2 < 1024 ∧
      (∀ n, n < 2 → s.sink.replyAt n = .ok) ∧ s.sink.replyAt 2 = .fail := by
  refine ⟨rfl, rfl, rfl, rfl, by decide, fun n h => ?_, rfl⟩
  interval_cases n <;> rfl

/-- Under both policies: with SINK_STOP = 0 after a failure, and with SINK_STOP = 1 after an ok. -/
theorem test_hyp_UnansweredWriteHoldsTheBlock :
    (let s := lastByte [.fail, .never] 0
     s.MessageSound ∧ .reset ∉ s.input ∧ s.held = false ∧ s.mrx.cnt = 259 ∧ 1 < 1024 ∧ (∀ n, n < 1 → s.sink.replyAt n ≠ .never) ∧
      s.sink.replyAt 1 = .never ∧ s.cfg.ctrl = 0) ∧
    (let s := lastByte [.ok, .never] 1
     s.held = false ∧ s.mrx.cnt = 259 ∧ (∀ n, n < 1 → s.sink.replyAt n ≠ .never) ∧ s.sink.replyAt 1 = .never ∧
      s.mrx.nodeOk = true ∧ ∀ n, n < 1 → s.sink.replyAt n = .ok) := by
  refine ⟨⟨by constructor <;> decide, by decide, rfl, rfl, by decide, fun n h => ?_, rfl, rfl⟩,
    rfl, rfl, fun n h => ?_, rfl, rfl, fun n h => ?_⟩ <;>
    (obtain rfl : n = 0 := by omega) <;> first | rfl | exact nofun

/-- W7: a message whose payload bytes so far are all 0x77. -/
theorem test_hyp_AllOffMessageDrivesZero :
    let s := (lastByte [] 0).setMrx { (lastByte [] 0).mrx with mbuf := Vector.replicate 256 0x77 }
    s.held = false ∧ s.mrx.cnt = 259 ∧ s.cfg.ctrl = 0 ∧ (∀ j, j < 255 → s.mrx.mbuf[j]? = some 0x77) ∧
      ∀ n, n < 1024 → s.sink.replyAt n ≠ .never := by
  refine ⟨rfl, rfl, rfl, fun j h => ?_, fun n _ => free_answers 0 n⟩
  have : j < 256 := by omega
  simp [this]

end Sys2Proof.Tests
end

/-! ## Steps and the trace: `StepRunsDecodedCommand` and `TraceOnlyGrows` -/

namespace Sys2Proof.Machine

/-! ### Taking a word (R54, R60, R66) -/

/-- Between steps, with a word as the oldest input, a step takes that word and runs it. -/
theorem step_command {s : State} {cw : CmdWord} {rest : List Input} (hh : s.held = false)
    (hi : s.input = .command cw :: rest) : step s = runWord cw (s.setInput rest) := by
  simp [step, takeInput, hh, hi, runInput]

/-- A word that decodes to a command is run as that command. -/
theorem runWord_of_decode {cw : CmdWord} {i : Instr} (h : decode cw = .ok i) (s : State) :
    runWord cw s = exec i s := by
  simp [runWord, h]

/-- Settles O6: the step takes the word, and the word runs as the command it decodes to. -/
theorem stepRunsDecodedCommand : Obligations.StepRunsDecodedCommand := by
  intro s cw rest i hh hi hd
  rw [step_command hh hi, runWord_of_decode hd]

/-! ### The trace before an operation is a prefix of the trace after it (R12, R13) -/

/-- Both outcomes of a branch extend the trace, so the branch does. -/
theorem State.trace_prefix_ite {s a b : State} {c : Prop} [Decidable c] (ha : s.trace <+: a.trace)
    (hb : s.trace <+: b.trace) : s.trace <+: (if c then a else b).trace := by
  split
  · exact ha
  · exact hb

theorem State.event_trace_prefix (s : State) (e : Event) : s.trace <+: (s.event e).trace :=
  List.prefix_append _ _

theorem State.emit_trace_prefix (s : State) (p : Port) (bs : List Byte) : s.trace <+: (s.emit p bs).trace :=
  List.prefix_append _ _

theorem State.setAw_finishWait_trace_prefix (s : State) (a : AckWindow) (r : WaitResult) (status : Byte) :
    s.trace <+: ((s.setAw a).finishWait r status).trace :=
  List.prefix_append _ _

theorem State.setAw_checkWindow_trace_prefix (s : State) (a : AckWindow) :
    s.trace <+: (s.setAw a).checkWindow.trace :=
  trace_prefix_ite (s.setAw_finishWait_trace_prefix _ _ _) List.prefix_rfl

theorem State.applyMessage_trace_prefix (s : State) : s.trace <+: s.applyMessage.trace := by
  obtain ⟨ok, held, es, k, h⟩ := State.issueWrites_frame (messageWrites s.mrx.mbuf) s
  rw [State.applyMessage, h]
  exact List.prefix_append _ _

theorem State.finishMessage_trace_prefix (s : State) : s.trace <+: s.finishMessage.trace :=
  trace_prefix_ite List.prefix_rfl (State.event_trace_prefix _ _)

/-- Every command keeps the events before it in place: one that writes registers leaves the trace, one that emits appends
to it, and one that branches does one or the other. -/
theorem exec_trace_prefix {i : Instr} {s t : State} (h : exec i s = .next t) : s.trace <+: t.trace := by
  cases i <;> obtain rfl := Host.Outcome.next.inj h
  case nop | errClr | crcInit | crcByte | frxStart | ackSeq | mrxStart => exact List.prefix_rfl
  case regRd | pbufRd | map => exact s.event_trace_prefix _
  case ackTxRaw => exact s.emit_trace_prefix _ _
  case cfgWr => exact State.trace_prefix_ite List.prefix_rfl List.prefix_rfl
  case ftxStart | msgTx | ackTxFrame | ackTxMsg =>
    exact State.trace_prefix_ite List.prefix_rfl (s.emit_trace_prefix _ _)
  case frxByte => exact State.trace_prefix_ite List.prefix_rfl (State.event_trace_prefix _ _)
  case ftxByte b =>
    exact State.trace_prefix_ite List.prefix_rfl <| State.trace_prefix_ite
      ((s.emit_trace_prefix .frameOut [b]).trans (State.emit_trace_prefix _ _ _)) (s.emit_trace_prefix _ _)
  case awStart | awTick =>
    exact State.trace_prefix_ite List.prefix_rfl <|
      State.trace_prefix_ite (s.setAw_finishWait_trace_prefix _ _ _) List.prefix_rfl
  case awByte =>
    exact State.trace_prefix_ite List.prefix_rfl <|
      State.trace_prefix_ite (s.setAw_checkWindow_trace_prefix _) List.prefix_rfl
  case mrxByte b =>
    exact State.trace_prefix_ite
      ((s.setMrx (mrxStore s.mrx.cnt.toNat b s.mrx)).applyMessage_trace_prefix.trans
        (State.finishMessage_trace_prefix _)) List.prefix_rfl

/-- Every step, reset included, keeps the events before it in place. -/
theorem step_trace_prefix {s t : State} (h : step s = .next t) : s.trace <+: t.trace := by
  obtain rfl | ⟨pre, rest, -, -, -, rfl⟩ | ⟨-, cw, rest, -, ⟨-, rfl⟩ | ⟨i, -, hx⟩⟩ := step_cases h
  · exact List.prefix_rfl
  · exact List.prefix_rfl
  · exact List.prefix_rfl
  · exact (exec_trace_prefix hx : (s.setInput rest).trace <+: t.trace)

/-- Settles O9: what a step appends is the rest of the trace after the prefix that stood before it. -/
theorem traceOnlyGrows : Obligations.TraceOnlyGrows := by
  intro s t h
  obtain ⟨es, he⟩ := step_trace_prefix h
  exact ⟨es, he.symm⟩

end Sys2Proof.Machine

/-! ## What each command leaves alone -/

namespace Sys2Proof.Machine

/-! ### The parts of the state and the commands that write them -/

/-- The parts of the state that commands write, the trace and the sink's replies apart. -/
inductive Part where
  | cfg | crc | frx | ftx | aw | path | atxSeq | mrx | held | err

/-- The parts a command may write, from the rules of its opcode (R81 to R143). -/
def writtenParts : Instr → List Part
  | .cfgWr _ _                          => [.cfg, .err]
  | .errClr _                           => [.err]
  | .crcInit | .crcByte _               => [.crc]
  | .frxStart                           => [.frx]
  | .frxByte _                          => [.frx, .path]
  | .ftxStart _ | .ftxByte _            => [.ftx, .err]
  | .msgTx _ | .ackTxFrame | .ackTxMsg  => [.err]
  | .ackSeq _                           => [.atxSeq]
  | .awStart _ _ | .awByte _            => [.aw, .path, .err]
  | .awTick                             => [.aw, .path]
  | .mrxStart                           => [.mrx]
  | .mrxByte _                          => [.mrx, .held]
  | .nop | .regRd _ | .pbufRd _ | .ackTxRaw _ | .map _ _ => []

/-- The part is the same in both states. -/
@[simp] def Part.Kept : Part → State → State → Prop
  | .cfg, s, t    => t.cfg = s.cfg
  | .crc, s, t    => t.crc = s.crc
  | .frx, s, t    => t.frx = s.frx
  | .ftx, s, t    => t.ftx = s.ftx
  | .aw, s, t     => t.aw = s.aw
  | .path, s, t   => t.path = s.path
  | .atxSeq, s, t => t.atxSeq = s.atxSeq
  | .mrx, s, t    => t.mrx = s.mrx
  | .held, s, t   => t.held = s.held
  | .err, s, t    => t.err = s.err

theorem Part.Kept.refl (p : Part) (s : State) : p.Kept s s := by cases p <;> rfl

theorem Part.Kept.ite {p : Part} {s a b : State} {c : Prop} [Decidable c] (ha : p.Kept s a) (hb : p.Kept s b) :
    p.Kept s (if c then a else b) := by
  split
  · exact ha
  · exact hb

theorem Part.Kept.ite_neg {p : Part} {s a b : State} {c : Prop} [Decidable c] (hc : ¬ c) (hb : p.Kept s b) :
    p.Kept s (if c then a else b) := by
  rwa [if_neg hc]

/-! ### The shared operations -/

theorem Part.kept_setTrace (p : Part) (s : State) (x : List Event) : p.Kept s (s.setTrace x) := by cases p <;> rfl

theorem Part.kept_raise {p : Part} (s : State) (f : ErrFlag) (hp : p ≠ .err) : p.Kept s (s.raise f) := by
  cases p <;> simp_all

theorem Part.kept_finishWait {p : Part} (s : State) (a : AckWindow) (r : WaitResult) (status : Byte) (ha : p ≠ .aw)
    (hp : p ≠ .path) : p.Kept s ((s.setAw a).finishWait r status) := by
  cases p <;> simp_all [State.finishWait_eq]

theorem Part.kept_setAw {p : Part} (s : State) (a : AckWindow) (ha : p ≠ .aw) : p.Kept s (s.setAw a) := by
  cases p <;> simp_all

/-- The last byte of a message writes the message receiver and the hold flag. -/
theorem Part.kept_applyMessage_finishMessage {p : Part} (s : State) (m : MsgRx) (hm : p ≠ .mrx) (hh : p ≠ .held) :
    p.Kept s (s.setMrx m).applyMessage.finishMessage := by
  obtain ⟨ok, held, es, k, h⟩ := State.issueWrites_frame (messageWrites m.mbuf) (s.setMrx m)
  rw [State.applyMessage, State.setMrx_mrx, h]
  exact .ite (by cases p <;> simp_all) (by cases p <;> simp_all)

/-! ### The commands -/

/-- A command leaves every part it does not write. -/
theorem exec_kept {i : Instr} {s t : State} {p : Part} (h : exec i s = .next t) (hp : p ∉ writtenParts i) :
    p.Kept s t := by
  cases i <;> obtain rfl := Host.Outcome.next.inj h <;>
    simp only [writtenParts, List.mem_cons, List.not_mem_nil, or_false, not_or] at hp
  case nop => exact .refl p s
  case regRd | pbufRd | map | ackTxRaw => exact p.kept_setTrace s _
  case errClr | crcInit | crcByte | frxStart | ackSeq | mrxStart => cases p <;> simp_all
  case cfgWr => exact .ite (by cases p <;> simp_all) (p.kept_raise s _ hp.2)
  case msgTx | ackTxFrame | ackTxMsg => exact .ite (p.kept_raise s _ hp) (p.kept_setTrace s _)
  case frxByte => exact .ite (by cases p <;> simp_all) (by cases p <;> simp_all)
  case ftxStart => exact .ite (p.kept_raise s _ hp.2) (by cases p <;> simp_all)
  case ftxByte => exact .ite (p.kept_raise s _ hp.2) (.ite (by cases p <;> simp_all) (by cases p <;> simp_all))
  case awStart =>
    obtain ⟨haw, hpath, herr⟩ := hp
    exact .ite (p.kept_raise s _ herr) (.ite (p.kept_finishWait s _ _ _ haw hpath) (p.kept_setAw s _ haw))
  case awByte =>
    obtain ⟨haw, hpath, herr⟩ := hp
    exact .ite (p.kept_raise s _ herr)
      (.ite (.ite (p.kept_finishWait s _ _ _ haw hpath) (p.kept_setAw s _ haw)) (p.kept_setAw s _ haw))
  case awTick => exact .ite (.refl p s) (.ite (p.kept_finishWait s _ _ _ hp.1 hp.2) (p.kept_setAw s _ hp.1))
  case mrxByte =>
    exact .ite (p.kept_applyMessage_finishMessage s _ hp.1 hp.2) (by cases p <;> simp_all)

end Sys2Proof.Machine

/-! ## Reset: `ResetStepSetsResetValues` and `ResetStateShowsResetValues` -/

namespace Sys2Proof.Machine

/-- After any reset every register reads as its reset value (R21, R22, R167). -/
theorem State.resetTo_readReg (n : Nat) (r : Reg) : (State.resetTo n).readReg r = resetValue r := by
  cases r
  case cfg c => cases c <;> rfl
  case fstat | awStat | awWinLo | awWinHi | path | mstat =>
    simp [State.readReg, State.resetTo, resetValue, fstatWord, FrameRx.resetTo, awStatWord, awWinLo, awWinHi,
      AckWindow.reset, AwState.code, slotCode, pathWord, PathStatus.agg, mstatWord, MsgRx.resetTo, bit32]
  all_goals rfl

/-- The reset step leaves every register at its reset value. -/
theorem State.resetStep_readReg (s : State) (r : Reg) : s.resetStep.readReg r = resetValue r := by
  have h : s.resetStep.readReg r = (State.resetTo (s.resets + 1)).readReg r := by cases r <;> rfl
  rw [h, State.resetTo_readReg]

/-- Settles O16: the step takes the first reset, and the reset step touches neither the trace nor the sink. -/
theorem resetStepSetsResetValues : Obligations.ResetStepSetsResetValues := by
  intro s pre rest hp hh hi
  exact ⟨_, step_reset hp hh hi, State.resetStep_readReg _, rfl, rfl, rfl, rfl⟩

/-- Settles O17: the state after reset is the state after the 0th reset. -/
theorem resetStateShowsResetValues : Obligations.ResetStateShowsResetValues :=
  ⟨State.resetTo_readReg 0, rfl, rfl, rfl⟩

end Sys2Proof.Machine

/-! ## Configuration registers: `ConfigWrittenOnlyByCfgWr` -/

namespace Sys2Proof.Machine

/-- A configuration register reads below 2 to its width: it is stored at that width (R20, R21). -/
theorem CfgRegs.get_fits (c : CfgRegs) (r : CfgReg) : r.Fits (c.get r) := by
  cases r
  case awTimeout => exact c.awTimeout.isLt
  all_goals exact setWidth_toNat_lt _

/-- Only `CFG_WR` writes the configuration (R20). -/
theorem exec_keeps_cfg {i : Instr} {s t : State} (hi : ∀ r v, i ≠ .cfgWr r v) (h : exec i s = .next t) :
    t.cfg = s.cfg := by
  refine exec_kept (p := .cfg) h ?_
  cases i
  case cfgWr r v => exact absurd rfl (hi r v)
  all_goals simp [writtenParts]

/-- `CFG_WR` of a value that does not fit raises ILLEGAL (R66). -/
theorem exec_cfgWr_of_not_fits {r : CfgReg} {v : Word32} (h : ¬ r.Fits v) (s : State) :
    exec (.cfgWr r v) s = .next (s.raise .illegal) :=
  congrArg _ (if_neg h)

/-- The word of a `CFG_WR` whose value does not fit is rejected for its value (R66, R82). -/
theorem decode_encode_cfgWr_of_not_fits {r : CfgReg} {v : Word32} (h : ¬ r.Fits v) :
    decode (encode (.cfgWr r v)) = .error (.valueTooWide r v) := by
  have hd : decode (encode (.cfgWr r v)) = decodeCfgWr r.index v := decode_mkWord _ _ _
  rw [hd, decodeCfgWr, CfgReg.ofIndex_index]
  exact if_neg h

/-- Settles O18: the configuration is a part only `CFG_WR` writes, each register is stored at its width, and both the
meaning and the decoder check the width of a new value. -/
theorem configWrittenOnlyByCfgWr : Obligations.ConfigWrittenOnlyByCfgWr :=
  ⟨fun _ _ _ hi h r => congrArg (CfgRegs.get · r) (exec_keeps_cfg hi h),
   fun s => s.cfg.get_fits,
   fun s _ _ h => ⟨exec_cfgWr_of_not_fits h s, _, decode_encode_cfgWr_of_not_fits h⟩,
   fun _ _ => rfl⟩

end Sys2Proof.Machine

/-! ## The CRC engine: `CrcEngineIsIndependent` -/

namespace Sys2Proof.Machine

/-- Reading a register other than CRC does not read CRC (R23). -/
theorem State.readReg_setCrc (s : State) (x : Word16) {r : Reg} (h : r ≠ .crc) :
    (s.setCrc x).readReg r = s.readReg r := by
  cases r
  case crc => exact absurd rfl h
  all_goals rfl

theorem State.ite_setCrc {c : Prop} [Decidable c] {a b a' b' : State} {x : Word16} (ha : a' = a.setCrc x)
    (hb : b' = b.setCrc x) : (if c then a' else b') = (if c then a else b).setCrc x := by
  split
  · exact ha
  · exact hb

/-- Issuing a write does not read CRC. -/
theorem State.issueWrite_setCrc (s : State) (x : Word16) (w : ChannelWrite) :
    (s.setCrc x).issueWrite w = (s.issueWrite w).setCrc x :=
  ite_setCrc rfl (ite_setCrc rfl rfl)

/-- Issuing a list of writes does not read CRC. -/
theorem State.issueWrites_setCrc (ws : List ChannelWrite) (s : State) (x : Word16) :
    ws.foldl State.issueWrite (s.setCrc x) = (ws.foldl State.issueWrite s).setCrc x := by
  induction ws generalizing s with
  | nil => rfl
  | cons w ws ih => rw [List.foldl_cons, List.foldl_cons, State.issueWrite_setCrc, ih]

theorem State.applyMessage_setCrc (s : State) (x : Word16) : (s.setCrc x).applyMessage = s.applyMessage.setCrc x :=
  issueWrites_setCrc (messageWrites s.mrx.mbuf) s x

theorem State.finishMessage_setCrc (s : State) (x : Word16) :
    (s.setCrc x).finishMessage = s.finishMessage.setCrc x :=
  ite_setCrc rfl rfl

/-- A command other than the engine's two and `REG_RD CRC` does the same whatever CRC holds: no branch and no written
value reads it (R23). -/
theorem exec_setCrc {i : Instr} {s t : State} (x : Word16) (hinit : i ≠ .crcInit) (hbyte : ∀ b, i ≠ .crcByte b)
    (hrd : i ≠ .regRd .crc) (h : exec i s = .next t) : exec i (s.setCrc x) = .next (t.setCrc x) := by
  cases i <;> obtain rfl := Host.Outcome.next.inj h
  case crcInit => exact absurd rfl hinit
  case crcByte b => exact absurd rfl (hbyte b)
  case regRd r =>
    have hr : (s.setCrc x).readReg r = s.readReg r := s.readReg_setCrc x (fun e => hrd (e ▸ rfl))
    exact congrArg (fun w => Host.Outcome.next ((s.setCrc x).respond w)) hr
  case nop | errClr | frxStart | pbufRd | ackSeq | ackTxRaw | mrxStart | map => rfl
  case cfgWr | frxByte | ftxStart | msgTx | ackTxFrame | ackTxMsg =>
    exact congrArg Host.Outcome.next (State.ite_setCrc rfl rfl)
  case ftxByte | awStart | awTick =>
    exact congrArg Host.Outcome.next (State.ite_setCrc rfl (State.ite_setCrc rfl rfl))
  case awByte =>
    exact congrArg Host.Outcome.next
      (State.ite_setCrc rfl (State.ite_setCrc (State.ite_setCrc rfl rfl) rfl))
  case mrxByte b =>
    have hm : ((s.setMrx (mrxStore s.mrx.cnt.toNat b s.mrx)).setCrc x).applyMessage.finishMessage =
        (s.setMrx (mrxStore s.mrx.cnt.toNat b s.mrx)).applyMessage.finishMessage.setCrc x := by
      rw [State.applyMessage_setCrc, State.finishMessage_setCrc]
    exact congrArg Host.Outcome.next (State.ite_setCrc hm rfl)

/-- Only the engine's two commands write CRC (R23). -/
theorem exec_keeps_crc {i : Instr} {s t : State} (hinit : i ≠ .crcInit) (hbyte : ∀ b, i ≠ .crcByte b)
    (h : exec i s = .next t) : t.crc = s.crc := by
  refine exec_kept (p := .crc) h ?_
  cases i
  case crcInit => exact absurd rfl hinit
  case crcByte b => exact absurd rfl (hbyte b)
  all_goals simp [writtenParts]

/-- Settles O23: no other command writes or reads CRC, and the engine's two write nothing else. -/
theorem crcEngineIsIndependent : Obligations.CrcEngineIsIndependent := by
  refine ⟨fun i s t x hinit hbyte hrd h => ⟨exec_keeps_crc hinit hbyte h, exec_setCrc x hinit hbyte hrd h⟩, ?_⟩
  intro i s t hi h
  have hw : writtenParts i = [.crc] := by obtain rfl | ⟨b, rfl⟩ := hi <;> rfl
  exact ⟨exec_kept (p := .frx) h (by simp [hw]), exec_kept (p := .ftx) h (by simp [hw])⟩

end Sys2Proof.Machine

/-! ## Legal words: every word that decodes meets a row of the opcode map (R66, R67) -/

namespace Sys2Proof

/-! ### What an accepted word says of its fields, one lemma per form of a row -/

theorem of_unlessReserved_ok {clear : Bool} {m : String} {i j : Instr} (h : unlessReserved clear m i = .ok j) :
    clear = true := by
  cases clear
  · cases h
  · rfl

theorem of_decodePlain_ok {m : String} {i j : Instr} {sel : Byte} {imm : Word32}
    (h : decodePlain m i sel imm = .ok j) : sel = 0 ∧ imm.toNat < 2 ^ 0 := by
  obtain ⟨hs, rfl⟩ : sel = 0 ∧ imm = 0 := by simpa using of_unlessReserved_ok h
  exact ⟨hs, by decide⟩

theorem of_decodeField_ok {k : Nat} {m : String} {mk : BitVec k → Instr} {j : Instr} {sel : Byte} {imm : Word32}
    (h : decodeField k m mk sel imm = .ok j) : sel = 0 ∧ imm.toNat < 2 ^ k := by
  simpa using of_unlessReserved_ok h

theorem of_decodeMap_ok {j : Instr} {sel : Byte} {imm : Word32} (h : decodeMap sel imm = .ok j) :
    sel = 0 ∧ imm.toNat < 2 ^ 14 := by
  simpa using of_unlessReserved_ok h

theorem of_decodeCfgWr_ok {j : Instr} {sel : Byte} {imm : Word32} (h : decodeCfgWr sel imm = .ok j) :
    ∃ r, CfgReg.ofIndex sel = some r ∧ r.Fits imm := by
  unfold decodeCfgWr at h
  split at h
  · cases h
  · next r hr =>
    split at h
    · next hf => exact ⟨r, hr, hf⟩
    · cases h

theorem of_decodeRegRd_ok {j : Instr} {sel : Byte} {imm : Word32} (h : decodeRegRd sel imm = .ok j) :
    (∃ r, Reg.ofIndex sel = some r) ∧ imm = 0 := by
  unfold decodeRegRd at h
  split at h
  · cases h
  · next r hr => exact ⟨⟨r, hr⟩, by simpa using of_unlessReserved_ok h⟩

theorem of_decodeMsgTx_ok {j : Instr} {sel : Byte} {imm : Word32} (h : decodeMsgTx sel imm = .ok j) :
    (∃ x, Half.ofSel sel = some x) ∧ imm = 0 := by
  unfold decodeMsgTx at h
  split at h
  · cases h
  · next x hx => exact ⟨⟨x, hx⟩, by simpa using of_unlessReserved_ok h⟩

theorem of_decodeAwStart_ok {j : Instr} {sel : Byte} {imm : Word32} (h : decodeAwStart sel imm = .ok j) :
    ∃ k, Slot.ofSel sel = some k := by
  unfold decodeAwStart at h
  split at h
  · cases h
  · next k hk => exact ⟨k, hk⟩

theorem of_decodeAckTx_ok {j : Instr} {sel : Byte} {imm : Word32} (h : decodeAckTx sel imm = .ok j) :
    (sel = 0 ∧ imm.toNat < 2 ^ 8) ∨ (sel = 1 ∧ imm = 0) ∨ (sel = 2 ∧ imm = 0) := by
  unfold decodeAckTx at h
  split at h
  · next hs => exact .inl ⟨BitVec.eq_of_toNat_eq hs, by simpa using of_unlessReserved_ok h⟩
  · next hs => exact .inr (.inl ⟨BitVec.eq_of_toNat_eq hs, by simpa using of_unlessReserved_ok h⟩)
  · next hs => exact .inr (.inr ⟨BitVec.eq_of_toNat_eq hs, by simpa using of_unlessReserved_ok h⟩)
  · cases h

/-! ### Selectors -/

theorem CfgReg.eq_index_of_ofIndex {sel : Byte} {r : CfgReg} (h : CfgReg.ofIndex sel = some r) : sel = r.index := by
  unfold CfgReg.ofIndex at h
  split at h
  case h_8 => cases h
  all_goals
    next hs =>
    cases h
    exact BitVec.eq_of_toNat_eq hs

theorem Reg.eq_index_of_ofIndex {sel : Byte} {r : Reg} (h : Reg.ofIndex sel = some r) : sel = r.index := by
  unfold Reg.ofIndex at h
  split at h
  case h_23 =>
    obtain ⟨c, hc, rfl⟩ := Option.map_eq_some_iff.1 h
    exact CfgReg.eq_index_of_ofIndex hc
  all_goals
    next hs =>
    cases h
    exact BitVec.eq_of_toNat_eq hs

theorem Half.eq_sel_of_ofSel {sel : Byte} {x : Half} (h : Half.ofSel sel = some x) : sel = x.sel := by
  unfold Half.ofSel at h
  split at h
  case h_3 => cases h
  all_goals
    next hs =>
    cases h
    exact BitVec.eq_of_toNat_eq hs

theorem Slot.eq_sel_of_ofSel {sel : Byte} {k : Slot} (h : Slot.ofSel sel = some k) : sel = k.sel := by
  unfold Slot.ofSel at h
  split at h
  case h_4 => cases h
  all_goals
    next hs =>
    cases h
    exact BitVec.eq_of_toNat_eq hs

end Sys2Proof

namespace Sys2Proof.Machine

/-! ### Rows of the opcode map -/

/-- An IMM below 2 to the k has no bit of the mask above the field. -/
theorem and_reserved_eq_zero {k : Nat} {imm m : Word32} (hm : m = (-1 : Word32) <<< k) (h : imm.toNat < 2 ^ k) :
    imm &&& m = 0 := by
  have hx : imm = (imm.setWidth k).setWidth 32 := by
    apply BitVec.eq_of_toNat_eq
    have := imm.isLt
    rw [BitVec.toNat_setWidth, BitVec.toNat_setWidth, Nat.mod_eq_of_lt h, Nat.mod_eq_of_lt this]
  rw [hx]
  exact Laws.Opcode.field_above _ m hm

/-- A word is legal when its fields meet the n-th row. -/
theorem Legal.of_row {cw : CmdWord} {row : MapRow} (n : Nat) (hn : opcodeMap[n]? = some row)
    (ho : (opcOf cw).toNat = row.opc.toNat) (hs : selOf cw ∈ row.sels) (hi : immOf cw &&& row.reserved = 0) :
    Legal cw :=
  ⟨row, List.mem_of_getElem? hn, BitVec.eq_of_toNat_eq ho, hs, hi⟩

/-- The rows with a field of k bits at the bottom of IMM and SEL reserved; what is said of the row is checked by
evaluation. -/
theorem Legal.of_field {cw : CmdWord} {row : MapRow} (n k : Nat) (hn : opcodeMap[n]? = some row)
    (ho : (opcOf cw).toNat = row.opc.toNat) (h : selOf cw = 0 ∧ (immOf cw).toNat < 2 ^ k)
    (hs : 0 ∈ row.sels := by decide) (hk : row.reserved = (-1 : Word32) <<< k := by decide) : Legal cw :=
  .of_row n hn ho (h.1 ▸ hs) (and_reserved_eq_zero hk h.2)

/-- The three rows of `CFG_WR`, by the width of the register. -/
theorem Legal.of_cfgWr {cw : CmdWord} (ho : (opcOf cw).toNat = 0x01) {r : CfgReg} (hs : selOf cw = r.index)
    (hf : r.Fits (immOf cw)) : Legal cw := by
  cases r
  case crcInit | frameMagic | ackMagicRx | ackMagicTx =>
    exact .of_row 1 rfl ho (by rw [hs]; decide) (and_reserved_eq_zero (k := 16) (by decide) hf)
  case bank | ctrl => exact .of_row 2 rfl ho (by rw [hs]; decide) (and_reserved_eq_zero (k := 1) (by decide) hf)
  case awTimeout => exact .of_row 3 rfl ho (by rw [hs]; decide) (and_reserved_eq_zero (k := 32) (by decide) hf)

theorem regIndex_mem_regRd_sels (r : Reg) : r.index ∈ opcodeMap[4].sels := by
  cases r
  case cfg c => cases c <;> decide
  all_goals decide

/-- The three rows of `ACK_TX`, one per source. -/
theorem Legal.of_ackTx {cw : CmdWord} (ho : (opcOf cw).toNat = 0x29)
    (h : (selOf cw = 0 ∧ (immOf cw).toNat < 2 ^ 8) ∨ (selOf cw = 1 ∧ immOf cw = 0) ∨
      (selOf cw = 2 ∧ immOf cw = 0)) : Legal cw := by
  obtain h | ⟨hs, hi⟩ | ⟨hs, hi⟩ := h
  · exact .of_field 15 8 rfl ho h
  · exact .of_row 16 rfl ho (by rw [hs]; decide) (by rw [hi]; decide)
  · exact .of_row 17 rfl ho (by rw [hs]; decide) (by rw [hi]; decide)

/-- A word that decodes is legal: the decoder's row of its opcode is a row of the map. -/
theorem legal_of_decode {cw : CmdWord} {i : Instr} (h : decode cw = .ok i) : Legal cw := by
  unfold decode decodeFields at h
  split at h <;> rename_i ho
  case h_1 => exact .of_field 0 0 rfl ho (of_decodePlain_ok h)
  case h_2 =>
    obtain ⟨r, hr, hf⟩ := of_decodeCfgWr_ok h
    exact .of_cfgWr ho (CfgReg.eq_index_of_ofIndex hr) hf
  case h_3 =>
    obtain ⟨⟨r, hr⟩, hi⟩ := of_decodeRegRd_ok h
    exact .of_row 4 rfl ho (Reg.eq_index_of_ofIndex hr ▸ regIndex_mem_regRd_sels r) (by rw [hi]; decide)
  case h_4 => exact .of_field 5 7 rfl ho (of_decodeField_ok h)
  case h_5 => exact .of_field 6 0 rfl ho (of_decodePlain_ok h)
  case h_6 => exact .of_field 7 8 rfl ho (of_decodeField_ok h)
  case h_7 => exact .of_field 8 0 rfl ho (of_decodePlain_ok h)
  case h_8 => exact .of_field 9 8 rfl ho (of_decodeField_ok h)
  case h_9 => exact .of_field 10 9 rfl ho (of_decodeField_ok h)
  case h_10 => exact .of_field 11 32 rfl ho (of_decodeField_ok h)
  case h_11 => exact .of_field 12 8 rfl ho (of_decodeField_ok h)
  case h_12 =>
    obtain ⟨⟨x, hx⟩, hi⟩ := of_decodeMsgTx_ok h
    exact .of_row 13 rfl ho (by rw [Half.eq_sel_of_ofSel hx]; cases x <;> decide) (by rw [hi]; decide)
  case h_13 => exact .of_field 14 32 rfl ho (of_decodeField_ok h)
  case h_14 => exact .of_ackTx ho (of_decodeAckTx_ok h)
  case h_15 =>
    obtain ⟨k, hk⟩ := of_decodeAwStart_ok h
    exact .of_row 18 rfl ho (by rw [Slot.eq_sel_of_ofSel hk]; cases k <;> decide) (BitVec.and_zero)
  case h_16 => exact .of_field 19 8 rfl ho (of_decodeField_ok h)
  case h_17 => exact .of_field 20 0 rfl ho (of_decodePlain_ok h)
  case h_18 => exact .of_field 21 0 rfl ho (of_decodePlain_ok h)
  case h_19 => exact .of_field 22 8 rfl ho (of_decodeField_ok h)
  case h_20 => exact .of_field 23 14 rfl ho (of_decodeMap_ok h)
  case h_21 => cases h

/-- A word that is no legal encoding raises ILLEGAL (R66). -/
theorem runWord_of_not_legal {cw : CmdWord} (h : ¬ Legal cw) (s : State) :
    runWord cw s = .next (s.raise .illegal) := by
  unfold runWord
  split
  · next hd => exact absurd (legal_of_decode hd) h
  · rfl

end Sys2Proof.Machine

/-! ## The error flags: `ErrFlagsFollowTheirTable` -/

namespace Sys2Proof.Machine

/-- A command whose row of R30 is met raises the row's flag and does nothing else. -/
theorem exec_of_raisedBy {i : Instr} {s : State} {f : ErrFlag} (h : raisedBy s i = some f) :
    exec i s = .next (s.raise f) := by
  cases i
  case awStart =>
    obtain ⟨hw, rfl⟩ : s.aw.state = .wait ∧ .awBusy = f := by simpa [raisedBy] using h
    exact congrArg _ (if_pos hw)
  case awByte =>
    obtain ⟨hw, rfl⟩ : s.aw.state ≠ .wait ∧ .awStray = f := by simpa [raisedBy] using h
    exact congrArg _ (if_pos hw)
  case msgTx | ackTxFrame =>
    obtain ⟨hv, rfl⟩ : s.frx.valid = false ∧ .noFrame = f := by simpa [raisedBy] using h
    exact congrArg _ (if_pos (by rw [hv]; rfl))
  case ackTxMsg =>
    obtain ⟨hd, rfl⟩ : s.mrx.done = false ∧ .noMsg = f := by simpa [raisedBy] using h
    exact congrArg _ (if_pos (by rw [hd]; rfl))
  case ftxStart =>
    obtain ⟨ha, rfl⟩ : s.ftx.active = true ∧ .ftxBusy = f := by simpa [raisedBy] using h
    exact congrArg _ (if_pos ha)
  case ftxByte =>
    obtain ⟨ha, rfl⟩ : s.ftx.active = false ∧ .ftxIdle = f := by simpa [raisedBy] using h
    exact congrArg _ (if_pos (by rw [ha]; rfl))
  all_goals cases h

/-- A command other than `ERR_CLR` whose row of R30 is not met, or that has none, leaves ERR. -/
theorem exec_err_of_not_raised {i : Instr} {s t : State} (hw : i.WellFormed) (hr : raisedBy s i = none)
    (hi : ∀ mask, i ≠ .errClr mask) (h : exec i s = .next t) : t.err = s.err := by
  cases i
  case errClr mask => exact absurd rfl (hi mask)
  case cfgWr r v =>
    obtain rfl := Host.Outcome.next.inj h
    have hf : r.Fits v := of_decide_eq_true hw
    rw [if_pos hf, State.setCfg_err]
  case awByte =>
    obtain rfl := Host.Outcome.next.inj h
    exact Part.Kept.ite_neg (p := .err) (by simpa [raisedBy] using hr) (.ite (.ite rfl rfl) rfl)
  case msgTx | ackTxFrame | ackTxMsg | ftxStart =>
    obtain rfl := Host.Outcome.next.inj h
    exact Part.Kept.ite_neg (p := .err) (by simpa [raisedBy] using hr) rfl
  case awStart | ftxByte =>
    obtain rfl := Host.Outcome.next.inj h
    exact Part.Kept.ite_neg (p := .err) (by simpa [raisedBy] using hr) (.ite rfl rfl)
  all_goals exact exec_kept (p := .err) h (by simp [writtenParts])

theorem errWith_getLsbD_of_set {err : BitVec 7} {k : Nat} (h : err.getLsbD k = true) (f : ErrFlag) :
    (errWith err f).getLsbD k = true := by
  simp [errWith, h]

/-- A set flag stays set through every command but an `ERR_CLR` that names it (R30, R84). -/
theorem exec_err_cleared {i : Instr} {s t : State} (hw : i.WellFormed) (h : exec i s = .next t) {k : Nat}
    (hs : s.err.getLsbD k = true) (ht : t.err.getLsbD k = false) :
    ∃ mask : BitVec 7, i = .errClr mask ∧ mask.getLsbD k = true := by
  cases hr : raisedBy s i with
  | some f =>
    obtain rfl := Host.Outcome.next.inj ((exec_of_raisedBy hr).symm.trans h)
    rw [State.raise_eq, State.setErr_err, errWith_getLsbD_of_set hs f] at ht
    cases ht
  | none =>
    by_cases hi : ∃ mask, i = .errClr mask
    · obtain ⟨mask, rfl⟩ := hi
      obtain rfl := Host.Outcome.next.inj h
      refine ⟨mask, rfl, ?_⟩
      simpa [errCleared, hs, BitVec.lt_of_getLsbD hs] using ht
    · rw [exec_err_of_not_raised hw hr (fun mask e => hi ⟨mask, e⟩) h, hs] at ht
      cases ht

/-- Settles O19: a row that is met raises its flag, one that is not leaves ERR, an illegal word raises ILLEGAL, and the
reset step starts from ERR = 0. -/
theorem errFlagsFollowTheirTable : Obligations.ErrFlagsFollowTheirTable := by
  refine ⟨fun i s t hw h => ⟨fun f hr => ?_, fun hr hi => exec_err_of_not_raised hw hr hi h,
    fun k hs ht => exec_err_cleared hw h hs ht⟩, fun cw s hl => ?_, fun _ => rfl⟩
  · obtain rfl := Host.Outcome.next.inj ((exec_of_raisedBy hr).symm.trans h)
    exact errWith_toNat s.err f
  · exact ⟨_, runWord_of_not_legal hl s, errWith_toNat s.err .illegal⟩

end Sys2Proof.Machine

/-! ## The ranges of R35: `RangesKeptByEveryStep` and `ResetIsInRange` -/

namespace Sys2Proof.Machine

/-! ### Invariants of a step -/

/-- What the inputs, a reset, an illegal word and every command of a block between steps keep, a step keeps. -/
theorem step_keeps {P : State → Prop} (hinput : ∀ s xs, P s → P (s.setInput xs))
    (hreset : ∀ s : State, P s.resetStep) (hillegal : ∀ s, P s → P (s.raise .illegal))
    (hexec : ∀ i s t, s.held = false → P s → exec i s = .next t → P t) {s t : State} (hs : P s)
    (h : step s = .next t) : P t := by
  obtain rfl | ⟨pre, rest, -, -, -, rfl⟩ | ⟨hh, cw, rest, -, ⟨-, rfl⟩ | ⟨i, -, hx⟩⟩ := step_cases h
  · exact hs
  · exact hreset _
  · exact hillegal _ (hinput s rest hs)
  · exact hexec i (s.setInput rest) t hh (hinput s rest hs) hx

/-! ### What a byte does to its receiver -/

/-- `FRX_BYTE` stores the byte and counts it, back to 0 after byte 519 (R93). -/
theorem exec_frxByte_frx {b : Byte} {s t : State} (h : exec (.frxByte b) s = .next t) :
    t.frx = { frxStore s.cfg s.frx.cnt.toNat b s.frx with
      cnt := if s.frx.cnt.toNat = 519 then 0 else s.frx.cnt + 1 } := by
  obtain rfl := Host.Outcome.next.inj h
  split <;> rfl

/-- `MRX_BYTE` before the last byte stores the byte and counts it (R140). -/
theorem exec_mrxByte_of_ne_last {b : Byte} {s t : State} (h : exec (.mrxByte b) s = .next t)
    (hk : s.mrx.cnt.toNat ≠ 259) :
    t = s.setMrx { mrxStore s.mrx.cnt.toNat b s.mrx with cnt := s.mrx.cnt + 1 } := by
  obtain rfl := Host.Outcome.next.inj h
  exact if_neg hk

/-- The last byte of a message is stored and the writes change NODE_OK; then the block is held with the message in
progress, or the message is done (R140, R144, R176). -/
theorem exec_mrxByte_of_last {b : Byte} {s t : State} (h : exec (.mrxByte b) s = .next t)
    (hk : s.mrx.cnt.toNat = 259) :
    ∃ ok, (t.held = true ∧ t.mrx = { mrxStore 259 b s.mrx with nodeOk := ok }) ∨
      (t.held = false ∧ t.mrx = { mrxStore 259 b s.mrx with nodeOk := ok, done := true, cnt := 0 }) := by
  obtain rfl := Host.Outcome.next.inj h
  obtain ⟨ok, held, es, k, ha⟩ :=
    State.issueWrites_frame (messageWrites (mrxStore 259 b s.mrx).mbuf) (s.setMrx (mrxStore 259 b s.mrx))
  refine ⟨ok, ?_⟩
  rw [if_pos hk, hk, State.applyMessage, State.setMrx_mrx, ha]
  cases held
  · exact .inr ⟨rfl, rfl⟩
  · exact .inl ⟨rfl, rfl⟩

@[simp] theorem mrxStore_cnt (k : Nat) (b : Byte) (m : MsgRx) : (mrxStore k b m).cnt = m.cnt := by
  unfold mrxStore
  split_ifs <;> rfl

/-! ### The ranges unit by unit -/

/-- The ranges of the frame transmitter (R35). -/
def FrameTx.InRange (f : FrameTx) : Prop := (f.active = false → f.cnt = 0) ∧ f.cnt.toNat ≤ 511

/-- The ranges of the acknowledgement window (R35). -/
def AckWindow.InRange (a : AckWindow) : Prop :=
  (a.state = .wait → a.n.toNat ≤ 6 ∧ 1 ≤ a.limit.toNat ∧ a.elapsed.toNat < a.limit.toNat) ∧
    (a.state = .matched → a.n = 7)

/-- The ranges of R35 are those of the units: a slot is one of three, and ERR has seven bits, in every state. -/
theorem State.inRange_iff {s : State} :
    s.InRange ↔ s.frx.cnt.toNat ≤ 519 ∧ s.mrx.cnt.toNat ≤ 259 ∧ s.ftx.InRange ∧ s.aw.InRange := by
  constructor
  · intro h
    exact ⟨h.frxCnt, h.mrxCnt, ⟨h.ftxIdle, h.ftxCnt⟩, ⟨h.waiting, h.matched⟩⟩
  · rintro ⟨hfrx, hmrx, ⟨hidle, hcnt⟩, hwait, hmatched⟩
    exact ⟨hfrx, hmrx, hidle, hcnt, hwait, hmatched, by cases s.aw.slot <;> decide,
      by rw [State.readReg_err_toNat]; exact s.err.isLt⟩

/-- The state after any reset is in range. -/
theorem State.resetTo_inRange (n : Nat) : (State.resetTo n).InRange :=
  State.inRange_iff.2 ⟨Nat.zero_le _, Nat.zero_le _, ⟨fun _ => rfl, Nat.zero_le _⟩, nofun, nofun⟩

theorem State.resetStep_inRange (s : State) : s.resetStep.InRange := by
  have h := State.inRange_iff.1 (State.resetTo_inRange (s.resets + 1))
  exact State.inRange_iff.2 h

/-! ### The ranges a command keeps -/

theorem exec_frxCnt_le {i : Instr} {s t : State} (h : exec i s = .next t) (hs : s.frx.cnt.toNat ≤ 519) :
    t.frx.cnt.toNat ≤ 519 := by
  cases i
  case frxStart =>
    obtain rfl := Host.Outcome.next.inj h
    exact Nat.zero_le _
  case frxByte b =>
    rw [exec_frxByte_frx h]
    dsimp only
    split
    · decide
    · bv_omega
  all_goals
    rw [exec_kept (p := .frx) h (by simp [writtenParts])]
    exact hs

theorem exec_mrxCnt_le {i : Instr} {s t : State} (h : exec i s = .next t) (hs : s.mrx.cnt.toNat ≤ 259) :
    t.mrx.cnt.toNat ≤ 259 := by
  cases i
  case mrxStart =>
    obtain rfl := Host.Outcome.next.inj h
    exact Nat.zero_le _
  case mrxByte b =>
    by_cases hk : s.mrx.cnt.toNat = 259
    · obtain ⟨ok, ⟨-, hm⟩ | ⟨-, hm⟩⟩ := exec_mrxByte_of_last h hk
      · simpa [hm] using hs
      · simp [hm]
    · rw [exec_mrxByte_of_ne_last h hk, State.setMrx_mrx]
      bv_omega
  all_goals
    rw [exec_kept (p := .mrx) h (by simp [writtenParts])]
    exact hs

theorem exec_ftx_inRange {i : Instr} {s t : State} (h : exec i s = .next t) (hs : s.ftx.InRange) : t.ftx.InRange := by
  cases i
  case ftxStart =>
    obtain rfl := Host.Outcome.next.inj h
    split
    · exact hs
    · exact ⟨nofun, Nat.zero_le _⟩
  case ftxByte b =>
    obtain rfl := Host.Outcome.next.inj h
    split
    · exact hs
    · split
      · exact ⟨fun _ => rfl, Nat.zero_le _⟩
      · next hne =>
        have hcnt := hs.2
        refine ⟨nofun, ?_⟩
        simp only [State.setFtx_ftx]
        bv_omega
  all_goals
    rw [exec_kept (p := .ftx) h (by simp [writtenParts])]
    exact hs

/-- The check of a full window ends in MATCH with AW_N = 7, or goes on with AW_N = 6 (R116). -/
theorem State.checkWindow_aw_inRange {s : State} (hn : s.aw.n = 7) (hm : s.aw.state ≠ .matched)
    (hlimit : 1 ≤ s.aw.limit.toNat ∧ s.aw.elapsed.toNat < s.aw.limit.toNat) : s.checkWindow.aw.InRange := by
  unfold State.checkWindow
  split
  · exact ⟨nofun, fun _ => hn⟩
  · exact ⟨fun _ => ⟨Nat.le_refl 6, hlimit⟩, fun h => absurd h hm⟩

theorem exec_aw_inRange {i : Instr} {s t : State} (h : exec i s = .next t) (hs : s.aw.InRange) : t.aw.InRange := by
  cases i
  case awStart =>
    obtain rfl := Host.Outcome.next.inj h
    split
    · exact hs
    · split
      · exact ⟨nofun, nofun⟩
      · next hne =>
        have hpos : 0 < s.cfg.awTimeout.toNat := by bv_omega
        exact ⟨fun _ => ⟨Nat.zero_le _, hpos, hpos⟩, nofun⟩
  case awByte b =>
    obtain rfl := Host.Outcome.next.inj h
    split
    · exact hs
    · next hw =>
      have hwait : s.aw.state = .wait := not_not.1 hw
      obtain ⟨hn, hlimit⟩ := hs.1 hwait
      have hunmatched : s.aw.state ≠ .matched := by rw [hwait]; exact nofun
      split
      · next h7 => exact State.checkWindow_aw_inRange h7 hunmatched hlimit
      · next h7 =>
        refine ⟨fun _ => ⟨?_, hlimit⟩, fun hm => absurd hm hunmatched⟩
        simp only [State.setAw_aw] at h7 ⊢
        bv_omega
  case awTick =>
    obtain rfl := Host.Outcome.next.inj h
    split
    · exact hs
    · next hw =>
      have hwait : s.aw.state = .wait := not_not.1 hw
      obtain ⟨hn, hlimit, -⟩ := hs.1 hwait
      split
      · exact ⟨nofun, nofun⟩
      · next hlt =>
        have hbelow := BitVec.lt_def.1 (BitVec.not_le.1 hlt)
        exact ⟨fun _ => ⟨hn, hlimit, hbelow⟩, hs.2⟩
  all_goals
    rw [exec_kept (p := .aw) h (by simp [writtenParts])]
    exact hs

/-- Every command keeps the ranges of R35. -/
theorem exec_inRange {i : Instr} {s t : State} (h : exec i s = .next t) (hs : s.InRange) : t.InRange := by
  obtain ⟨hfrx, hmrx, hftx, haw⟩ := State.inRange_iff.1 hs
  exact State.inRange_iff.2
    ⟨exec_frxCnt_le h hfrx, exec_mrxCnt_le h hmrx, exec_ftx_inRange h hftx, exec_aw_inRange h haw⟩

theorem State.setInput_inRange {s : State} (xs : List Input) (hs : s.InRange) : (s.setInput xs).InRange :=
  State.inRange_iff.2 (State.inRange_iff.1 hs :)

theorem State.raise_inRange {s : State} (f : ErrFlag) (hs : s.InRange) : (s.raise f).InRange :=
  State.inRange_iff.2 (State.inRange_iff.1 hs :)

/-- Settles O10: every way a step can go keeps the ranges. -/
theorem rangesKeptByEveryStep : Obligations.RangesKeptByEveryStep := by
  intro s t hs h
  exact step_keeps (fun _ xs => State.setInput_inRange xs) State.resetStep_inRange
    (fun _ => State.raise_inRange .illegal) (fun _ _ _ _ hu hx => exec_inRange hx hu) hs h

/-- Settles O11: the state after reset is the state after the 0th reset. -/
theorem resetIsInRange : Obligations.ResetIsInRange := State.resetTo_inRange 0

end Sys2Proof.Machine

/-! ## The message receiver: `MessageStaysSound` and `ResetIsMessageSound` -/

namespace Sys2Proof.Machine

/-- After any reset no message is in progress and the block is not held. -/
theorem State.resetTo_messageSound (n : Nat) : (State.resetTo n).MessageSound :=
  ⟨nofun, fun h _ => absurd rfl h, nofun⟩

/-- `MessageSound` speaks of the message receiver and the hold flag alone. -/
theorem State.MessageSound.of_eq {s t : State} (hs : s.MessageSound) (hm : t.mrx = s.mrx) (hh : t.held = s.held) :
    t.MessageSound := by
  constructor
  · rw [hm]; exact hs.done
  · rw [hm, hh]; exact hs.running
  · rw [hm, hh]; exact hs.held

/-- Byte 0 of a message sets NODE_OK and clears MDONE; the bytes after it leave both (R140). -/
theorem mrxStore_nodeOk (k : Nat) (b : Byte) (m : MsgRx) : (mrxStore k b m).nodeOk = (k = 0 || m.nodeOk) := by
  unfold mrxStore
  split_ifs with h0 <;> simp [h0]

theorem mrxStore_done (k : Nat) (b : Byte) (m : MsgRx) : (mrxStore k b m).done = (k ≠ 0 && m.done) := by
  unfold mrxStore
  split_ifs with h0 <;> simp [h0]

/-- Every command of a block between steps keeps `MessageSound`. -/
theorem exec_messageSound {i : Instr} {s t : State} (hh : s.held = false) (hs : s.MessageSound)
    (h : exec i s = .next t) : t.MessageSound := by
  cases i
  case mrxStart =>
    obtain rfl := Host.Outcome.next.inj h
    exact ⟨fun _ => rfl, fun hc => absurd rfl hc, fun hheld => absurd (hh.symm.trans hheld) nofun⟩
  case mrxByte b =>
    have hnotDone : s.mrx.cnt ≠ 0 → s.mrx.done = false := fun hc => by simpa using mt hs.done hc
    by_cases hk : s.mrx.cnt.toNat = 259
    · have hc : s.mrx.cnt = 259 := BitVec.eq_of_toNat_eq hk
      obtain ⟨ok, ⟨hheld, hm⟩ | ⟨hheld, hm⟩⟩ := exec_mrxByte_of_last h hk
      · have hd : t.mrx.done = false := by simp [hm, mrxStore_done, hnotDone, hc]
        exact ⟨by simp [hd], by simp [hheld], fun _ => ⟨by simp [hm, hc], hd⟩⟩
      · exact ⟨fun _ => by rw [hm], fun hne => absurd (by rw [hm]) hne, by simp [hheld]⟩
    · obtain rfl := exec_mrxByte_of_ne_last h hk
      refine ⟨fun hd => ?_, fun _ _ => ?_, fun hheld => absurd (hh.symm.trans hheld) nofun⟩
      · obtain ⟨hk0, hd⟩ : s.mrx.cnt.toNat ≠ 0 ∧ s.mrx.done = true := by simpa [mrxStore_done] using hd
        exact absurd (congrArg BitVec.toNat (hs.done hd)) hk0
      · by_cases hc : s.mrx.cnt = 0
        · simp [mrxStore_nodeOk, hc]
        · simp [mrxStore_nodeOk, hs.running hc hh]
  all_goals
    exact hs.of_eq (exec_kept (p := .mrx) h (by simp [writtenParts]))
      (exec_kept (p := .held) h (by simp [writtenParts]))

/-- Settles O14: every way a step can go keeps it; the ranges are not needed. -/
theorem messageStaysSound : Obligations.MessageStaysSound := by
  intro s t _ hs h
  exact step_keeps (fun _ _ hu => hu.of_eq rfl rfl)
    (fun u => (State.resetTo_messageSound (u.resets + 1)).of_eq rfl rfl) (fun _ hu => hu.of_eq rfl rfl)
    (fun _ _ _ hh hu hx => exec_messageSound hh hu hx) hs h

/-- Settles O15: the state after reset is the state after the 0th reset. -/
theorem resetIsMessageSound : Obligations.ResetIsMessageSound := State.resetTo_messageSound 0

end Sys2Proof.Machine

/-! ## The frame receiver: `ValidFrameStaysSound` and `ResetIsFrameSound` -/

namespace Sys2Proof.Machine

/-! ### Little-endian fields filled byte by byte (R11, R93) -/

theorem leBytes_succ {w : Nat} (n : Nat) (v : BitVec w) :
    leBytes (n + 1) v = leBytes n v ++ [v.extractLsb' (8 * n) 8] := by
  simp [leBytes, List.range_succ]

theorem take_leBytes {w : Nat} {j n : Nat} (h : j ≤ n) (v : BitVec w) : (leBytes n v).take j = leBytes j v := by
  rw [leBytes, ← List.map_take, List.take_range, Nat.min_eq_left h, leBytes]

/-- Byte 0 of a field replaces the whole field. -/
theorem leBytes_one_setWidth {w : Nat} (b : Byte) (h : 8 ≤ w) : leBytes 1 (b.setWidth w) = [b] :=
  congrArg (fun x => [x]) (extractLsb'_setWidth_byte b h)

/-- Writing byte j of a field puts it after the bytes below j, which stay. -/
theorem leBytes_succ_setByte {w : Nat} (v : BitVec w) {j : Nat} (b : Byte) (h : 8 * j + 8 ≤ w) :
    leBytes (j + 1) (setByte v j b) = leBytes j v ++ [b] := by
  have hbelow : leBytes j (setByte v j b) = leBytes j v := by
    refine List.map_congr_left fun k hk => ?_
    have hkj : k < j := List.mem_range.1 hk
    rw [extractLsb'_setByte v j k b (by omega) h, if_neg (by omega)]
  rw [leBytes_succ, hbelow, extractLsb'_setByte v j j b h h, if_pos rfl]

theorem take_succ_set {α : Type} {l : List α} {n : Nat} (h : n < l.length) (x : α) :
    (l.set n x).take (n + 1) = l.take n ++ [x] := by
  rw [List.take_add_one, List.take_set_of_le (Nat.le_refl n), List.getElem?_set_self h]
  rfl

/-! ### What `FRX_BYTE` stores, an equation per field of the frame (R93) -/

section
variable (cfg : CfgRegs) (b : Byte) (f : FrameRx)

theorem frxStore_zero : frxStore cfg 0 b f =
    { f with valid := false, crc := crcUpdate cfg.crcInit b, magicRcvd := b.setWidth 16 } := rfl

theorem frxStore_one : frxStore cfg 1 b f =
    { f with crc := crcUpdate f.crc b, magicRcvd := setByte f.magicRcvd 1 b } := rfl

theorem frxStore_seq {j : Nat} (hj : j < 4) : frxStore cfg (2 + j) b f =
    { f with crc := crcUpdate f.crc b, seq := if j = 0 then b.setWidth 32 else setByte f.seq j b } := by
  interval_cases j <;> rfl

theorem frxStore_payload {j : Nat} (hj : j < 512) : frxStore cfg (6 + j) b f =
    { f with crc := crcUpdate f.crc b, pbuf := f.pbuf.setIfInBounds j b } := by
  rw [frxStore, if_neg (by omega), if_neg (by omega), if_neg (by omega), if_pos (by omega), Nat.add_sub_cancel_left]

theorem frxStore_crcLow : frxStore cfg 518 b f = { f with crcRcvd := b.setWidth 16 } := rfl

theorem frxStore_crcHigh : frxStore cfg 519 b f = verdict cfg { f with crcRcvd := setByte f.crcRcvd 1 b } := rfl

/-- Bytes 0 to 517 go into FRX_CRC, byte 0 from the configured initial value. -/
theorem frxStore_crc {k : Nat} (hk : k ≤ 517) :
    (frxStore cfg k b f).crc = crcUpdate (if k = 0 then cfg.crcInit else f.crc) b := by
  unfold frxStore
  split_ifs <;> rfl

/-- Byte 0 clears VALID, and no byte after it but the last writes it. -/
theorem frxStore_valid {k : Nat} (hk : k ≤ 518) : (frxStore cfg k b f).valid = (k ≠ 0 && f.valid) := by
  unfold frxStore
  split_ifs <;> simp_all
  omega

end

/-! ### The bytes held -/

theorem heldBytes_length (f : FrameRx) : (heldBytes f).length = 518 := by simp [heldBytes]

theorem take_heldBytes_magic (f : FrameRx) {j : Nat} (hj : j ≤ 2) : (heldBytes f).take j = leBytes j f.magicRcvd := by
  rw [heldBytes, List.append_assoc, List.take_append_of_le_length (by simpa using hj), take_leBytes hj]

theorem take_heldBytes_seq (f : FrameRx) {j : Nat} (hj : j ≤ 4) :
    (heldBytes f).take (2 + j) = leBytes 2 f.magicRcvd ++ leBytes j f.seq := by
  rw [heldBytes, List.take_append_of_le_length (by simp; omega), List.take_append, List.take_of_length_le (by simp)]
  simp [take_leBytes hj]

theorem take_heldBytes_payload (f : FrameRx) (j : Nat) :
    (heldBytes f).take (6 + j) = leBytes 2 f.magicRcvd ++ leBytes 4 f.seq ++ f.pbuf.toList.take j := by
  rw [heldBytes, List.take_append, List.take_of_length_le (by simp)]
  simp

/-- Byte k of a frame follows the first k bytes held, for the 518 bytes the CRC covers. -/
theorem take_heldBytes_frxStore (cfg : CfgRegs) (b : Byte) (f : FrameRx) {k : Nat} (hk : k ≤ 517) :
    (heldBytes (frxStore cfg k b f)).take (k + 1) = (heldBytes f).take k ++ [b] := by
  obtain rfl | rfl | ⟨j, hj, rfl⟩ | ⟨j, hj, rfl⟩ :
      k = 0 ∨ k = 1 ∨ (∃ j, j < 4 ∧ k = 2 + j) ∨ ∃ j, j < 512 ∧ k = 6 + j := by
    obtain h | h | h | h : k = 0 ∨ k = 1 ∨ (2 ≤ k ∧ k < 6) ∨ 6 ≤ k := by omega
    · exact .inl h
    · exact .inr (.inl h)
    · exact .inr (.inr (.inl ⟨k - 2, by omega, by omega⟩))
    · exact .inr (.inr (.inr ⟨k - 6, by omega, by omega⟩))
  · rw [take_heldBytes_magic _ (by decide), frxStore_zero]
    exact leBytes_one_setWidth b (by decide)
  · rw [take_heldBytes_magic _ (by decide), take_heldBytes_magic _ (by decide), frxStore_one]
    exact leBytes_succ_setByte f.magicRcvd b (by decide)
  · have hseq : leBytes (j + 1) (if j = 0 then b.setWidth 32 else setByte f.seq j b) = leBytes j f.seq ++ [b] := by
      split
      · next h0 =>
        subst h0
        exact leBytes_one_setWidth b (by decide)
      · exact leBytes_succ_setByte f.seq b (by omega)
    rw [Nat.add_assoc, take_heldBytes_seq _ hj, take_heldBytes_seq _ hj.le, frxStore_seq _ _ _ hj, hseq,
      List.append_assoc]
  · rw [Nat.add_assoc, take_heldBytes_payload, take_heldBytes_payload, frxStore_payload _ _ _ hj]
    simp only [Vector.toList_setIfInBounds]
    rw [take_succ_set (by simpa using hj), ← List.append_assoc]

/-! ### The invariant -/

/-- `FrameSound` speaks of the frame receiver alone. -/
theorem State.FrameSound.of_eq {init magic : Word16} {s t : State} (hs : s.FrameSound init magic)
    (h : t.frx = s.frx) : t.FrameSound init magic := by
  constructor
  · rw [h]; exact hs.running
  · rw [h]; exact hs.valid

/-- After any reset no frame is in progress and VALID is 0. -/
theorem State.resetTo_frameSound (n : Nat) (init magic : Word16) : (State.resetTo n).FrameSound init magic :=
  ⟨nofun, nofun⟩

/-- While a frame is in progress no frame is valid. -/
theorem State.FrameSound.not_valid {init magic : Word16} {s : State} (hs : s.FrameSound init magic)
    (h : s.frx.cnt ≠ 0) : s.frx.valid = false := by
  simpa using mt (fun hv => (hs.valid hv).1) h

/-- No byte of a frame but the last leaves VALID = 1. -/
theorem exec_frxByte_not_valid {init magic : Word16} {b : Byte} {s t : State} (hk : s.frx.cnt.toNat ≤ 518)
    (hs : s.FrameSound init magic) (h : exec (.frxByte b) s = .next t) : t.frx.valid = false := by
  have hv : t.frx.valid = (s.frx.cnt.toNat ≠ 0 && s.frx.valid) := by
    rw [exec_frxByte_frx h, ← frxStore_valid s.cfg b s.frx hk]
  rw [hv]
  by_cases h0 : s.frx.cnt = 0
  · simp [h0]
  · simp [hs.not_valid h0]

/-- `FRX_BYTE` of one of the 518 bytes the CRC covers: the byte goes into the CRC and after the bytes held. -/
theorem exec_frxByte_running {init magic : Word16} {b : Byte} {s t : State} (hk : s.frx.cnt.toNat ≤ 517)
    (hs : s.FrameSound init magic) (h : exec (.frxByte b) s = .next t) :
    t.frx.crc = crcOf (if s.frx.cnt = 0 then s.cfg.crcInit else init) ((heldBytes t.frx).take t.frx.cnt.toNat) := by
  have ht := exec_frxByte_frx h
  rw [if_neg (by omega)] at ht
  have hcrc : t.frx.crc = crcUpdate (if s.frx.cnt.toNat = 0 then s.cfg.crcInit else s.frx.crc) b := by
    rw [ht, ← frxStore_crc s.cfg b s.frx hk]
  have hheld : (heldBytes t.frx).take t.frx.cnt.toNat = (heldBytes s.frx).take s.frx.cnt.toNat ++ [b] := by
    rw [← take_heldBytes_frxStore s.cfg b s.frx hk, ht]
    congr 1
    bv_omega
  rw [hcrc, hheld, crcOf_append]
  by_cases h0 : s.frx.cnt = 0
  · simp [h0, crcOf]
  · have hpos : s.frx.cnt.toNat ≠ 0 := fun e => h0 (BitVec.eq_of_toNat_eq e)
    rw [if_neg hpos, if_neg h0, hs.running (by omega)]
    rfl

/-- The verdict of the last byte: VALID = 1 only when both checks passed (R93). -/
theorem verdict_valid {cfg : CfgRegs} {f : FrameRx} (h : (verdict cfg f).valid = true) :
    (verdict cfg f).magicErr = false ∧ (verdict cfg f).crcErr = false ∧ f.magicRcvd = cfg.frameMagic ∧
      f.crcRcvd = f.crc := by
  obtain ⟨hm, hc⟩ : f.magicRcvd = cfg.frameMagic ∧ f.crc = f.crcRcvd := by simpa [verdict] using h
  exact ⟨by simp [verdict, hm], by simp [verdict, hc], hm, hc.symm⟩

/-- `FRX_BYTE` keeps `FrameSound`, with the initial value read at byte 0 and the magic at byte 519 (R93). -/
theorem exec_frxByte_frameSound {init magic : Word16} {b : Byte} {s t : State} (hr : s.frx.cnt.toNat ≤ 519)
    (hs : s.FrameSound init magic) (h : exec (.frxByte b) s = .next t) :
    t.FrameSound (if s.frx.cnt = 0 then s.cfg.crcInit else init)
      (if s.frx.cnt = 519 then s.cfg.frameMagic else magic) := by
  have ht := exec_frxByte_frx h
  obtain hk | hk | hk : s.frx.cnt.toNat ≤ 517 ∨ s.frx.cnt.toNat = 518 ∨ s.frx.cnt.toNat = 519 := by omega
  · have hv := exec_frxByte_not_valid (by omega) hs h
    exact ⟨fun _ => exec_frxByte_running hk hs h, fun hv' => absurd (hv.symm.trans hv') nofun⟩
  · have hv := exec_frxByte_not_valid (by omega) hs h
    refine ⟨fun _ => ?_, fun hv' => absurd (hv.symm.trans hv') nofun⟩
    have hc : s.frx.cnt = 518 := BitVec.eq_of_toNat_eq hk
    have hall : (heldBytes s.frx).take 518 = (heldBytes s.frx).take 519 := by
      rw [List.take_of_length_le (heldBytes_length _).le, List.take_of_length_le (by simp [heldBytes_length])]
    rw [hk, if_neg (by decide), frxStore_crcLow, hc] at ht
    rw [ht, hc, if_neg (by decide)]
    exact (hs.running (by omega)).trans (by rw [hk, hall]; rfl)
  · have hc : s.frx.cnt = 519 := BitVec.eq_of_toNat_eq hk
    rw [hk, if_pos rfl, frxStore_crcHigh] at ht
    have hcrc : s.frx.crc = crcOf init (heldBytes s.frx) := by
      rw [hs.running (by omega), List.take_of_length_le (by rw [heldBytes_length]; omega)]
    rw [if_neg (by rw [hc]; decide), if_pos hc]
    refine ⟨fun hpos => absurd hpos (by rw [ht]; exact Nat.not_succ_le_zero 0), fun hv => ?_⟩
    rw [ht] at hv ⊢
    obtain ⟨hmagicErr, hcrcErr, hmagic, hrcvd⟩ := verdict_valid hv
    exact ⟨rfl, hmagicErr, hcrcErr, hmagic, hcrc, hrcvd⟩

/-- Every other command keeps `FrameSound`: only `FRX_START` writes the receiver, and it only ends the frame in
progress (R92). -/
theorem exec_frameSound_of_ne_frxByte {init magic : Word16} {i : Instr} {s t : State} (hi : ∀ b, i ≠ .frxByte b)
    (hs : s.FrameSound init magic) (h : exec i s = .next t) : t.FrameSound init magic := by
  cases i
  case frxByte b => exact absurd rfl (hi b)
  case frxStart =>
    obtain rfl := Host.Outcome.next.inj h
    exact ⟨nofun, fun hv => ⟨rfl, (hs.valid hv).2⟩⟩
  all_goals exact hs.of_eq (exec_kept (p := .frx) h (by simp [writtenParts]))

/-- A step that runs no `FRX_BYTE` keeps `FrameSound`. -/
theorem step_frameSound_of_not_frxByteNext {init magic : Word16} {s t : State} (hn : s.frxByteNext = false)
    (hs : s.FrameSound init magic) (h : step s = .next t) : t.FrameSound init magic := by
  obtain rfl | ⟨pre, rest, -, -, -, rfl⟩ | ⟨hh, cw, rest, hi, ⟨-, rfl⟩ | ⟨i, hd, hx⟩⟩ := step_cases h
  · exact hs
  · exact (State.resetTo_frameSound (s.resets + 1) init magic).of_eq rfl
  · exact hs.of_eq rfl
  · refine exec_frameSound_of_ne_frxByte (s := s.setInput rest) (fun b hb => ?_) (hs.of_eq rfl) hx
    rw [State.frxByteNext_iff.2 ⟨hh, cw, rest, b, hi, hb ▸ hd⟩] at hn
    cases hn

/-- Settles O12: a frame byte reads the two settings at its own offset; any other step keeps both. -/
theorem validFrameStaysSound : Obligations.ValidFrameStaysSound := by
  intro init magic s t hr hs h
  cases hn : s.frxByteNext with
  | false =>
    obtain ⟨hinit, hmagic⟩ := State.frameSettings_kept hn init magic
    rw [hinit, hmagic]
    exact step_frameSound_of_not_frxByteNext hn hs h
  | true =>
    obtain ⟨hinit, hmagic⟩ := State.frameSettings_byte hn init magic
    obtain ⟨hh, cw, rest, b, hi, hd⟩ := State.frxByteNext_iff.1 hn
    rw [step_command hh hi, runWord_of_decode hd] at h
    rw [hinit, hmagic]
    exact exec_frxByte_frameSound (s := s.setInput rest) hr.frxCnt (hs.of_eq rfl) h

/-- Settles O13: the state after reset is the state after the 0th reset. -/
theorem resetIsFrameSound : Obligations.ResetIsFrameSound := State.resetTo_frameSound 0

end Sys2Proof.Machine

/-! ## The CRC taken bit by bit, and the commands that only read: `CrcUpdateIsBitSerial` and `ReadsAreIdempotent` -/

namespace Sys2Proof.Machine

/-! ### The CRC one message bit at a time (R47, R89) -/

/-- A round on a register with a message word XORed in feeds the word's top bit and leaves its other bits, moved up one
place, still XORed in. -/
theorem crcRound_xor (r x : Word16) : crcRound (r ^^^ x) = crcBit r (x.getMsbD 0) ^^^ x <<< 1 := by
  have hbit : (r ^^^ x).getLsbD 15 = (r.getLsbD 15 ^^ x.getMsbD 0) := by simp [BitVec.getMsbD]
  rw [crcRound, crcBit, hbit, BitVec.shiftLeft_xor_distrib]
  split
  · rw [BitVec.xor_assoc, BitVec.xor_comm (x <<< 1), ← BitVec.xor_assoc]
  · rfl

/-- After n rounds the top n bits of the message word have been fed, and the rest stands at the top of the register. -/
theorem crcRounds_xor (n : Nat) (r x : Word16) :
    crcRounds n (r ^^^ x) = ((List.range n).map x.getMsbD).foldl crcBit r ^^^ x <<< n := by
  induction n generalizing r x with
  | zero => simp [crcRounds]
  | succ n ih =>
    have hbits : (x <<< 1).getMsbD = fun k => x.getMsbD (k + 1) := by
      funext k
      simp [BitVec.getMsbD_shiftLeft]
    rw [crcRounds, crcRound_xor, ih, hbits, ← BitVec.shiftLeft_add, Nat.add_comm 1 n, List.range_succ_eq_map,
      List.map_cons, List.map_map, List.foldl_cons]
    rfl

/-- The top bits of a word with a byte in its high half are the byte's bits. -/
theorem map_getMsbD_highByte (b : Byte) : (List.range 8).map (b.setWidth 16 <<< 8).getMsbD = bitsOf b := by
  refine List.map_congr_left fun k hk => ?_
  have hk8 : k < 8 := List.mem_range.1 hk
  have hplace : (b.setWidth 16 <<< 8).getMsbD k = b.getMsbD k := by
    rw [BitVec.getMsbD_shiftLeft, BitVec.getMsbD_setWidth]
    simp
  rw [hplace]
  simp [BitVec.getMsbD, hk8]

/-- Settles O31: after the 8 rounds of `upd` nothing of the byte is left in the register but what its bits did. -/
theorem crcUpdateIsBitSerial : Obligations.CrcUpdateIsBitSerial := by
  intro r b
  have hnone : (b.setWidth 16 <<< 8) <<< 8 = 0#16 := by
    rw [← BitVec.shiftLeft_add]
    exact BitVec.shiftLeft_eq_zero (by decide)
  rw [crcUpdate, crcRounds_xor, map_getMsbD_highByte, hnone, BitVec.xor_zero]

/-! ### The commands that only read (R51) -/

/-- `REG_RD`, `PBUF_RD` and `MAP` answer one response, and the response does not depend on what was emitted before. -/
theorem exec_read {i : Instr} (hi : (∃ r, i = .regRd r) ∨ (∃ idx, i = .pbufRd idx) ∨ ∃ v g, i = .map v g) (s : State) :
    ∃ w, ∀ es, exec i (s.setTrace es) = .next ((s.setTrace es).respond w) := by
  obtain ⟨r, rfl⟩ | ⟨idx, rfl⟩ | ⟨v, g, rfl⟩ := hi
  · refine ⟨s.readReg r, fun es => ?_⟩
    rw [← s.readReg_setTrace es r]
    rfl
  · exact ⟨(s.frx.pbuf[idx.toNat]'idx.isLt).setWidth 32, fun _ => rfl⟩
  · exact ⟨mapWord v g, fun _ => rfl⟩

/-- Settles O24: the first response changes the trace alone, which the second does not read. -/
theorem readsAreIdempotent : Obligations.ReadsAreIdempotent := by
  intro i s hi
  obtain ⟨w, hw⟩ := exec_read hi s
  exact ⟨w, s.respond w, (s.respond w).respond w, hw s.trace, s.respond_effect w, hw _,
    (s.respond w).respond_effect w⟩

end Sys2Proof.Machine

/-! ## The encoder and the decoder: `DecodeOfEncodeIsIdentity`, `EncodeOfDecodeIsIdentity`,
`IllegalWordOnlySetsIllegal` and `WorkedEncodingsDecode` -/

namespace Sys2Proof

/-! ### The two fields of `MAP` (R65, R135) -/

/-- The IMM of a `MAP` is the field of 14 bits with g above v. -/
theorem mapImm_eq_append (v : BitVec 4) (g : BitVec 10) :
    g.setWidth 32 <<< 4 ||| v.setWidth 32 = (g ++ v).setWidth 32 := by
  apply BitVec.eq_of_getLsbD_eq
  intro k hk
  simp only [BitVec.getLsbD_or, BitVec.getLsbD_shiftLeft, BitVec.getLsbD_setWidth, BitVec.getLsbD_append]
  by_cases h : k < 4
  · simp [h]
  · have hv : v.getLsbD k = false := BitVec.getLsbD_of_ge v k (by omega)
    have hk' : k - 4 < 32 := by omega
    simp [h, hv, hk, hk']

/-- The decoder of `MAP` reads both fields back. -/
theorem decodeMap_setWidth_append (v : BitVec 4) (g : BitVec 10) :
    decodeMap 0 ((g ++ v).setWidth 32) = .ok (.map v g) := by
  have hv : ((g ++ v).setWidth 32).extractLsb' 0 4 = v := by
    rw [BitVec.extractLsb'_setWidth_of_le (by decide), BitVec.extractLsb'_append_eq_right]
  have hg : ((g ++ v).setWidth 32).extractLsb' 4 10 = g := by
    rw [BitVec.extractLsb'_setWidth_of_le (by decide), BitVec.extractLsb'_append_eq_left]
  simp only [decodeMap, unlessReserved, hv, hg, setWidth_toNat_lt, decide_true]
  rfl

/-! ### Decoding an encoding (R59, R67) -/

/-- The decoder of a row whose field is all of IMM accepts every IMM. -/
theorem decodeField_32 (m : String) (mk : Word32 → Instr) (imm : Word32) :
    decodeField 32 m mk 0 imm = .ok (mk imm) := by
  simpa using decodeField_setWidth m mk imm le_rfl

/-- The word of a well-formed command decodes to that command: the row its opcode picks accepts its selector and its
operand, and reads both back. -/
theorem decode_encode {i : Instr} (hw : i.WellFormed) : decode (encode i) = .ok i := by
  cases i <;> refine (decode_mkWord _ _ _).trans ?_
  case nop | crcInit | frxStart | ackTxFrame | ackTxMsg | awTick | mrxStart => rfl
  case errClr x | crcByte x | frxByte x | pbufRd x | ftxByte x | awByte x | mrxByte x =>
    exact decodeField_setWidth _ _ x (by decide)
  case ackTxRaw x => exact decodeField_setWidth "ACK_TX_RAW" _ x (by decide)
  case ftxStart x | ackSeq x => exact decodeField_32 _ _ x
  case cfgWr r v =>
    show decodeCfgWr r.index v = _
    rw [decodeCfgWr, CfgReg.ofIndex_index]
    exact if_pos (of_decide_eq_true hw)
  case regRd r =>
    show decodeRegRd r.index 0 = _
    rw [decodeRegRd, Reg.ofIndex_index]
    rfl
  case msgTx x =>
    show decodeMsgTx x.sel 0 = _
    rw [decodeMsgTx, Half.ofSel_sel]
    rfl
  case awStart k seq =>
    show decodeAwStart k.sel seq = _
    rw [decodeAwStart, Slot.ofSel_sel]
  case map v g =>
    show decodeMap 0 (g.setWidth 32 <<< 4 ||| v.setWidth 32) = _
    rw [mapImm_eq_append, decodeMap_setWidth_append]

end Sys2Proof

namespace Sys2Proof.Machine

/-- Settles O1: each row of the decoder undoes the encoder's row of the same opcode. -/
theorem decodeOfEncodeIsIdentity : Obligations.DecodeOfEncodeIsIdentity := fun _ hw => decode_encode hw

/-- Settles O4: each word is evaluated. -/
theorem workedEncodingsDecode : Obligations.WorkedEncodingsDecode := ⟨rfl, rfl, rfl, rfl, rfl, rfl, rfl⟩

/-! ### Every legal word is the word of a well-formed command (R66, R67) -/

/-- An IMM whose bits of the mask above a field of k bits are 0 is that field. -/
theorem setWidth_of_and_reserved {k : Nat} {imm m : Word32} (hm : m = (-1 : Word32) <<< k) (h : imm &&& m = 0) :
    (imm.setWidth k).setWidth 32 = imm := by
  apply BitVec.eq_of_getLsbD_eq
  intro j hj
  by_cases hjk : j < k
  · simp [hj, hjk]
  · have hones : m.getLsbD j = true := by
      rw [hm, show (-1 : Word32) = BitVec.allOnes 32 from rfl, BitVec.getLsbD_shiftLeft, BitVec.getLsbD_allOnes]
      simp [hj, hjk, show j - k < 32 by omega]
    have hbit : (imm &&& m).getLsbD j = false := by rw [h]; exact BitVec.getLsbD_zero
    simpa [BitVec.getLsbD_and, hones, hjk] using hbit

/-- Every word that meets the row is the word of a well-formed command. -/
def MapRow.Encoded (row : MapRow) : Prop :=
  ∀ sel ∈ row.sels, ∀ imm : Word32, imm &&& row.reserved = 0 →
    ∃ i : Instr, i.WellFormed ∧ encode i = mkWord row.opc sel imm

/-- A row whose operand is a field of k bits at the bottom of IMM is encoded when each selector and each value of the
field has a command; which bits are reserved is checked by evaluation. -/
theorem MapRow.Encoded.of_operand {row : MapRow} (k : Nat)
    (h : ∀ sel ∈ row.sels, ∀ x : BitVec k, ∃ i : Instr, i.WellFormed ∧ encode i = mkWord row.opc sel (x.setWidth 32))
    (hk : row.reserved = (-1 : Word32) <<< k := by decide) : row.Encoded := by
  intro sel hs imm hi
  rw [← setWidth_of_and_reserved hk hi]
  exact h sel hs _

/-- The rows with one selector and a field of k bits at the bottom of IMM. -/
theorem MapRow.Encoded.of_field {row : MapRow} {sel : Byte} (k : Nat) (mk : BitVec k → Instr)
    (he : ∀ x, encode (mk x) = mkWord row.opc sel (x.setWidth 32) := by exact fun _ => rfl)
    (hw : ∀ x, (mk x).WellFormed := by exact fun _ => rfl) (hs : row.sels = [sel] := by rfl)
    (hk : row.reserved = (-1 : Word32) <<< k := by decide) : row.Encoded :=
  .of_operand k (fun s h x => ⟨mk x, hw x, by rw [hs] at h; rw [he, List.mem_singleton.1 h]⟩) hk

/-- The rows of one command without operands. -/
theorem MapRow.Encoded.of_plain {row : MapRow} {sel : Byte} (i : Instr)
    (he : encode i = mkWord row.opc sel 0 := by rfl) (hw : i.WellFormed := by rfl) (hs : row.sels = [sel] := by rfl)
    (hk : row.reserved = (-1 : Word32) <<< 0 := by decide) : row.Encoded :=
  .of_field 0 (fun _ => i) (fun x => by rw [he, BitVec.of_length_zero (x := x)]; rfl) (fun _ => hw) hs hk

/-- The rows whose selector names an operand, with a field of k bits at the bottom of IMM. -/
theorem MapRow.Encoded.of_selector {row : MapRow} {α : Type} (k : Nat) (name : Byte → Option α)
    (mk : α → BitVec k → Instr)
    (he : ∀ {sel a}, name sel = some a → ∀ x, encode (mk a x) = mkWord row.opc sel (x.setWidth 32))
    (hw : ∀ a x, (mk a x).WellFormed := by exact fun _ _ => rfl)
    (hs : row.sels.all (fun sel => (name sel).isSome) = true := by rfl)
    (hk : row.reserved = (-1 : Word32) <<< k := by decide) : row.Encoded := by
  refine .of_operand k (fun sel h x => ?_) hk
  obtain ⟨a, ha⟩ := Option.isSome_iff_exists.1 (List.all_eq_true.1 hs sel h)
  exact ⟨mk a x, hw a x, he ha x⟩

/-- The rows of `CFG_WR`: the registers of one width. -/
theorem MapRow.Encoded.of_cfgWr {row : MapRow} (k : Nat) (ho : row.opc = 0x01)
    (hs : ∀ sel ∈ row.sels, (CfgReg.ofIndex sel).map CfgReg.width = some k := by decide)
    (hk : row.reserved = (-1 : Word32) <<< k := by decide) : row.Encoded := by
  refine .of_operand k (fun sel h x => ?_) hk
  obtain ⟨r, hr, rfl⟩ := Option.map_eq_some_iff.1 (hs sel h)
  refine ⟨.cfgWr r (x.setWidth 32), decide_eq_true (setWidth_toNat_lt x), ?_⟩
  rw [ho, CfgReg.eq_index_of_ofIndex hr]
  rfl

theorem encode_regRd_of_ofIndex {sel : Byte} {r : Reg} (h : Reg.ofIndex sel = some r) (x : BitVec 0) :
    encode (.regRd r) = mkWord 0x02 sel (x.setWidth 32) := by
  rw [Reg.eq_index_of_ofIndex h, BitVec.of_length_zero (x := x)]
  rfl

theorem encode_msgTx_of_ofSel {sel : Byte} {a : Half} (h : Half.ofSel sel = some a) (x : BitVec 0) :
    encode (.msgTx a) = mkWord 0x20 sel (x.setWidth 32) := by
  rw [Half.eq_sel_of_ofSel h, BitVec.of_length_zero (x := x)]
  rfl

theorem encode_awStart_of_ofSel {sel : Byte} {k : Slot} (h : Slot.ofSel sel = some k) (seq : Word32) :
    encode (.awStart k seq) = mkWord 0x30 sel (seq.setWidth 32) := by
  rw [Slot.eq_sel_of_ofSel h, BitVec.setWidth_eq]
  rfl

/-- A `MAP` command for every value of the field of 14 bits. -/
theorem encode_map_extractLsb' (x : BitVec 14) :
    encode (.map (x.extractLsb' 0 4) (x.extractLsb' 4 10)) = mkWord 0x48 0 (x.setWidth 32) := by
  rw [encode, mapImm_eq_append, BitVec.extractLsb'_append_extractLsb']

/-- Every row of the opcode map is encoded, row by row. -/
theorem opcodeMap_encoded : ∀ row ∈ opcodeMap, row.Encoded := by
  simp only [opcodeMap, List.cons_append, List.nil_append, List.forall_mem_cons, List.not_mem_nil, false_implies,
    implies_true, and_true]
  exact ⟨
    .of_plain .nop,
    .of_cfgWr 16 rfl,
    .of_cfgWr 1 rfl,
    .of_cfgWr 32 rfl,
    .of_selector 0 Reg.ofIndex (fun r _ => .regRd r) encode_regRd_of_ofIndex,
    .of_field 7 .errClr,
    .of_plain .crcInit,
    .of_field 8 .crcByte,
    .of_plain .frxStart,
    .of_field 8 .frxByte,
    .of_field 9 .pbufRd,
    .of_field 32 .ftxStart (fun x => by rw [BitVec.setWidth_eq]; rfl),
    .of_field 8 .ftxByte,
    .of_selector 0 Half.ofSel (fun a _ => .msgTx a) encode_msgTx_of_ofSel,
    .of_field 32 .ackSeq (fun x => by rw [BitVec.setWidth_eq]; rfl),
    .of_field 8 .ackTxRaw,
    .of_plain .ackTxFrame,
    .of_plain .ackTxMsg,
    .of_selector 32 Slot.ofSel .awStart encode_awStart_of_ofSel,
    .of_field 8 .awByte,
    .of_plain .awTick,
    .of_plain .mrxStart,
    .of_field 8 .mrxByte,
    .of_field 14 (fun x => .map (x.extractLsb' 0 4) (x.extractLsb' 4 10)) encode_map_extractLsb'⟩

/-- A legal word is the word of a well-formed command. -/
theorem exists_encode_of_legal {cw : CmdWord} (h : Legal cw) : ∃ i : Instr, i.WellFormed ∧ encode i = cw := by
  obtain ⟨row, hrow, ho, hs, hi⟩ := h
  rw [← mkWord_fields cw, ho]
  exact opcodeMap_encoded row hrow _ hs _ hi

/-- A word decodes exactly when it is legal. -/
theorem exists_decode_iff_legal {cw : CmdWord} : (∃ i, decode cw = .ok i) ↔ Legal cw := by
  refine ⟨fun ⟨_, h⟩ => legal_of_decode h, fun h => ?_⟩
  obtain ⟨i, hw, rfl⟩ := exists_encode_of_legal h
  exact ⟨i, decode_encode hw⟩

/-- Settles O2: a word that decodes is legal, so it is the word of a well-formed command, and that is the command it
decodes to. -/
theorem encodeOfDecodeIsIdentity : Obligations.EncodeOfDecodeIsIdentity := by
  intro cw i h
  obtain ⟨j, hw, rfl⟩ := exists_encode_of_legal (legal_of_decode h)
  obtain rfl : j = i := Except.ok.inj ((decode_encode hw).symm.trans h)
  exact ⟨rfl, hw⟩

/-- Settles O3: the decoder and the opcode map accept the same words, and a step that takes any other word raises
ILLEGAL. -/
theorem illegalWordOnlySetsIllegal : Obligations.IllegalWordOnlySetsIllegal := by
  refine fun cw => ⟨exists_decode_iff_legal, fun s rest hh hi hl => ?_⟩
  have hstep : step s = .next ((s.setInput rest).raise .illegal) := by
    rw [step_command hh hi, runWord_of_not_legal hl]
  exact ⟨_, hstep, errWith_toNat s.err .illegal, State.raise_effect _ _⟩

end Sys2Proof.Machine

/-! ## Words on a byte link: `LinkBytesCarryWholeWords` -/

namespace Sys2Proof

/-- The six bytes of a word spell the word (R60). -/
theorem wordOfBytes_extractLsb' (cw : CmdWord) :
    wordOfBytes (cw.extractLsb' 0 8) (cw.extractLsb' 8 8) (cw.extractLsb' 16 8) (cw.extractLsb' 24 8)
      (cw.extractLsb' 32 8) (cw.extractLsb' 40 8) = cw := by
  unfold wordOfBytes
  iterate 5 rw [BitVec.extractLsb'_append_extractLsb'_eq_extractLsb' (by decide)]
  exact BitVec.extractLsb'_eq_self

/-- The decoder of a link reads the word the first six bytes spell and leaves the bytes after them. -/
theorem decodeBytes_cons (b0 b1 b2 b3 b4 b5 : Byte) (rest : List Byte) :
    decodeBytes (b0 :: b1 :: b2 :: b3 :: b4 :: b5 :: rest) = (decode (wordOfBytes b0 b1 b2 b3 b4 b5)).map (·, rest) := by
  rw [decodeBytes]
  cases decode (wordOfBytes b0 b1 b2 b3 b4 b5) <;> rfl

theorem decodeBytes_bytesOfWord_append (cw : CmdWord) (rest : List Byte) :
    decodeBytes (bytesOfWord cw ++ rest) = (decode cw).map (·, rest) :=
  (decodeBytes_cons _ _ _ _ _ _ rest).trans <|
    congrArg (fun w => (decode w).map (·, rest)) (wordOfBytes_extractLsb' cw)

/-- Fewer than six bytes are a partial word. -/
theorem decodeBytes_of_length_lt {bs : List Byte} (h : bs.length < 6) : decodeBytes bs = .error .partialWord := by
  unfold decodeBytes
  split
  · simp only [List.length_cons] at h
    omega
  · rfl

end Sys2Proof

namespace Sys2Proof.Machine

/-- Settles O5: the six bytes spell the word again, and no shorter list has six bytes. -/
theorem linkBytesCarryWholeWords : Obligations.LinkBytesCarryWholeWords := by
  refine ⟨fun cw rest => ?_, fun _ h => decodeBytes_of_length_lt h⟩
  rw [decodeBytes_bytesOfWord_append]
  cases decode cw <;> rfl

end Sys2Proof.Machine

/-! ## Steps that wait: `WaitingAndHoldingChangeNothing` -/

namespace Sys2Proof.Machine

/-- A held block with no reset presented stays as it is, whatever words wait (R144, R176). -/
theorem step_of_held {s : State} (hh : s.held = true) (hr : .reset ∉ s.input) : step s = .next s := by
  simp [step, takeInput, hh, takeReset_eq_none.2 hr]

/-- A block between steps with nothing presented waits (R60). -/
theorem step_of_no_input {s : State} (hh : s.held = false) (hi : s.input = []) : step s = .next s := by
  simp [step, takeInput, hh, hi]

/-- Settles O7: a held block has no reset to take, and a block between steps with no input waits. -/
theorem waitingAndHoldingChangeNothing : Obligations.WaitingAndHoldingChangeNothing := by
  rintro s (hi | ⟨hh, hr⟩)
  · cases hh : s.held with
    | true => exact step_of_held hh (by rw [hi]; exact List.not_mem_nil)
    | false => exact step_of_no_input hh hi
  · exact step_of_held hh hr

end Sys2Proof.Machine

/-! ## The words of an opcode: the "Encoding" and ILLEGAL lines of its rules (R66, R67) -/

namespace Sys2Proof.Machine

/-- The fields of a command's word, read off the word (R65, R67). -/
theorem fieldsOf_eq_encode (i : Instr) :
    fieldsOf i = ((opcOf (encode i)).toNat, (selOf (encode i)).toNat, (immOf (encode i)).toNat) := by
  cases i <;> simp only [encode, opcOf_mkWord, selOf_mkWord, immOf_mkWord]
  case errClr | crcByte | frxByte | pbufRd | ftxByte | ackTxRaw | awByte | mrxByte =>
    rw [BitVec.toNat_setWidth_of_le (by decide)]
    rfl
  case msgTx h => cases h <;> rfl
  case awStart k _ => cases k <;> rfl
  case map v g =>
    have himm : (g.setWidth 32 <<< 4 ||| v.setWidth 32 : Word32).toNat = 16 * g.toNat + v.toNat := by
      rw [mapImm_eq_append, BitVec.toNat_setWidth_of_le (by decide), BitVec.toNat_append,
        ← Nat.shiftLeft_add_eq_or_of_lt v.isLt, Nat.shiftLeft_eq, Nat.mul_comm]
    rw [himm]
    rfl
  all_goals rfl

/-- The word with the fields of a command is the command's encoding. -/
theorem encode_of_fieldsOf {i : Instr} {cw : CmdWord}
    (h : fieldsOf i = ((opcOf cw).toNat, (selOf cw).toNat, (immOf cw).toNat)) : encode i = cw := by
  rw [fieldsOf_eq_encode, Prod.mk.injEq, Prod.mk.injEq] at h
  obtain ⟨hopc, hsel, himm⟩ := h
  rw [← mkWord_fields (encode i), ← mkWord_fields cw, BitVec.eq_of_toNat_eq hopc, BitVec.eq_of_toNat_eq hsel,
    BitVec.eq_of_toNat_eq himm]

/-- `WordsOf` holds of every opcode: a word with a well-formed command's fields is its encoding, and a word without them
is no legal one. -/
theorem wordsOf (opc : Byte) : WordsOf opc := by
  rintro cw rfl
  refine ⟨fun i hw hf => ?_, fun hnone s => ?_⟩
  · rw [← encode_of_fieldsOf hf]
    exact decode_encode hw
  · have hl : ¬ Legal cw := fun hl => by
      obtain ⟨i, hw, rfl⟩ := exists_encode_of_legal hl
      exact hnone i hw (fieldsOf_eq_encode i)
    exact ⟨_, runWord_of_not_legal hl s, s.raise_err .illegal, s.raise_effect .illegal⟩

end Sys2Proof.Machine

/-! ## Control commands: `NopChangesNothing`, `CfgWrWritesOneRegister`, `RegRdShowsItsFields` and
`ErrClrClearsMaskedFlags` -/

namespace Sys2Proof.Machine

/-- Settles O27: the meaning of `NOP` is the state it is given. -/
theorem nopChangesNothing : Obligations.NopChangesNothing := ⟨wordsOf 0x00, fun _ => rfl⟩

/-! ### Writing a configuration register (R82) -/

/-- A configuration register reads the fitting value last written to it. -/
theorem CfgRegs.get_put_same (c : CfgRegs) {r : CfgReg} {v : Word32} (h : r.Fits v) : (c.put r v).get r = v := by
  cases r
  case awTimeout => rfl
  all_goals exact BitVec.setWidth_setWidth_eq_self h

/-- Writing a configuration register leaves the others. -/
theorem CfgRegs.get_put_of_ne (c : CfgRegs) {r q : CfgReg} (v : Word32) (h : q ≠ r) :
    (c.put r v).get q = c.get q := by
  cases r <;> cases q
  case crcInit.crcInit | frameMagic.frameMagic | ackMagicRx.ackMagicRx | ackMagicTx.ackMagicTx | bank.bank
    | awTimeout.awTimeout | ctrl.ctrl => exact absurd rfl h
  all_goals rfl

/-- Writing one configuration register changes what that register reads and nothing else. -/
theorem State.setCfg_put_effect (s : State) (r : CfgReg) (v : Word32) :
    Effect [.cfg r] [] s (s.setCfg (s.cfg.put r v)) := by
  refine ⟨fun q hq => ?_, ⟨rfl, rfl⟩, ⟨rfl, rfl, rfl, rfl⟩, (List.append_nil _).symm⟩
  cases q
  case cfg q => exact s.cfg.get_put_of_ne v fun e => hq (e ▸ List.mem_singleton_self _)
  all_goals rfl

/-- `CFG_WR` of a value that fits writes the register (R82). -/
theorem exec_cfgWr_of_fits {r : CfgReg} {v : Word32} (h : r.Fits v) (s : State) :
    exec (.cfgWr r v) s = .next (s.setCfg (s.cfg.put r v)) :=
  congrArg _ (if_pos h)

/-- Settles O28: a value that fits is written to its register alone, and the word of one that does not is rejected. -/
theorem cfgWrWritesOneRegister : Obligations.CfgWrWritesOneRegister := by
  refine ⟨wordsOf 0x01, fun s r v => ⟨fun hf => ?_, fun hf => ?_⟩⟩
  · exact ⟨_, exec_cfgWr_of_fits hf s, s.cfg.get_put_same hf, s.setCfg_put_effect r v⟩
  · have hrun : runWord (encode (.cfgWr r v)) s = .next (s.raise .illegal) := by
      rw [runWord, decode_encode_cfgWr_of_not_fits hf]
    exact ⟨_, hrun, s.raise_err .illegal, s.raise_effect .illegal⟩

/-! ### Reading a register (R22, R83) -/

/-- The word holds fields of the value `v` in its low k bits, and nothing above them. -/
def Packed (k : Nat) (w : Word32) (v : Nat) : Prop := w.toNat = v ∧ v < 2 ^ k

/-- A word of one field at bit 0. -/
theorem Packed.field {n : Nat} (x : BitVec n) (hn : n ≤ 32 := by decide) : Packed n (x.setWidth 32) x.toNat :=
  ⟨BitVec.toNat_setWidth_of_le hn, x.isLt⟩

/-- A field at bit k above the fields packed so far adds its value at that weight. -/
theorem Packed.or {j n : Nat} {w : Word32} {v : Nat} (h : Packed j w v) (k : Nat) (x : BitVec n)
    (hj : j ≤ k := by decide) (hk : k + n ≤ 32 := by decide) :
    Packed (k + n) (w ||| x.setWidth 32 <<< k) (v + 2 ^ k * x.toNat) := by
  obtain ⟨hw, hv⟩ := h
  have hvk : v < 2 ^ k := hv.trans_le (Nat.pow_le_pow_right (by decide) hj)
  have hsum : v + 2 ^ k * x.toNat < 2 ^ (k + n) := by
    calc v + 2 ^ k * x.toNat < 2 ^ k * (x.toNat + 1) := by rw [Nat.mul_succ]; omega
      _ ≤ 2 ^ k * 2 ^ n := Nat.mul_le_mul_left _ x.isLt
      _ = 2 ^ (k + n) := (Nat.pow_add ..).symm
  have hfit : 2 ^ k * x.toNat < 2 ^ 32 :=
    (Nat.le_add_left _ v).trans_lt (hsum.trans_le (Nat.pow_le_pow_right (by decide) hk))
  refine ⟨?_, hsum⟩
  rw [BitVec.toNat_or, BitVec.toNat_shiftLeft, BitVec.toNat_setWidth_of_le (by omega), hw, Nat.shiftLeft_eq,
    Nat.mul_comm, Nat.mod_eq_of_lt hfit, Nat.or_comm, ← Nat.two_pow_add_eq_or_of_lt hvk, Nat.add_comm]

/-- A word of one flag at bit 0. -/
theorem Packed.flag (f : Bool) : Packed 1 (bit32 f) f.toNat := by
  rw [← BitVec.toNat_ofBool]
  exact .field _

/-- A flag at bit k above the fields packed so far adds its value at that weight. -/
theorem Packed.orFlag {j : Nat} {w : Word32} {v : Nat} (h : Packed j w v) (k : Nat) (f : Bool)
    (hj : j ≤ k := by decide) (hk : k + 1 ≤ 32 := by decide) :
    Packed (k + 1) (w ||| bit32 f <<< k) (v + 2 ^ k * f.toNat) := by
  rw [← BitVec.toNat_ofBool]
  exact h.or k _ hj hk

theorem fstatWord_toNat (f : FrameRx) :
    (fstatWord f).toNat = f.valid.toNat + 2 * f.magicErr.toNat + 4 * f.crcErr.toNat :=
  (((Packed.flag f.valid).orFlag 1 f.magicErr).orFlag 2 f.crcErr).1

theorem pathWord_toNat (p : PathStatus) :
    (pathWord p).toNat = p.ok0.toNat + 2 * p.ok1.toNat + 4 * (p.ok0 && p.ok1).toNat :=
  (((Packed.flag p.ok0).orFlag 1 p.ok1).orFlag 2 p.agg).1

theorem mstatWord_toNat (m : MsgRx) : (mstatWord m).toNat = m.nodeOk.toNat + 2 * m.done.toNat :=
  ((Packed.flag m.nodeOk).orFlag 1 m.done).1

theorem awStatWord_toNat (a : AckWindow) : (awStatWord a).toNat =
    a.state.code.toNat + 4 * (slotCode a.slot).toNat + 16 * a.n.toNat + 256 * a.status.toNat :=
  ((((Packed.field a.state.code).or 2 (slotCode a.slot)).or 4 a.n).or 8 a.status).1

theorem awWinLo_toNat (a : AckWindow) : (awWinLo a).toNat = fromLe [a.win[0], a.win[1], a.win[2], a.win[3]] := by
  have h := ((((Packed.field a.win[0]).or 8 a.win[1]).or 16 a.win[2]).or 24 a.win[3]).1
  rw [awWinLo, h]
  simp only [fromLe]
  omega

theorem awWinHi_toNat (a : AckWindow) : (awWinHi a).toNat = fromLe [a.win[4], a.win[5], a.win[6]] := by
  have h := (((Packed.field a.win[4]).or 8 a.win[5]).or 16 a.win[6]).1
  rw [awWinHi, h]
  simp only [fromLe]
  omega

/-- A configuration register reads as its stored value (R21). -/
theorem State.cfg_get_toNat (s : State) (r : CfgReg) : (s.cfg.get r).toNat = regSum s (.cfg r) := by
  cases r
  case awTimeout => rfl
  all_goals exact BitVec.toNat_setWidth_of_le (by decide)

/-- Every register reads as the sum of its fields at their places (R21, R22). -/
theorem State.readReg_toNat (s : State) (r : Reg) : (s.readReg r).toNat = regSum s r := by
  cases r
  case cfg r => exact s.cfg_get_toNat r
  case fstat => exact fstatWord_toNat s.frx
  case ftxStat => exact (Packed.flag s.ftx.active).1
  case awStat => exact awStatWord_toNat s.aw
  case awWinLo => exact awWinLo_toNat s.aw
  case awWinHi => exact awWinHi_toNat s.aw
  case path => exact pathWord_toNat s.path
  case mstat => exact mstatWord_toNat s.mrx
  case fseq | awExp | awElapsed | awLimit | atxSeq | mseq => rfl
  case crc | frxCnt | fmagicRcvd | frxCrc | fcrcRcvd | ftxCnt | ftxCrc | mrxCnt | err =>
    exact BitVec.toNat_setWidth_of_le (by decide)

/-- Settles O29: the response is the value of the register, which is the sum of its fields. -/
theorem regRdShowsItsFields : Obligations.RegRdShowsItsFields :=
  ⟨wordsOf 0x02, fun s r => ⟨_, s.readReg r, rfl, s.respond_effect _, s.readReg_toNat r⟩⟩

/-! ### Clearing error flags (R84) -/

/-- Replacing ERR changes nothing else. -/
theorem State.setErr_effect (s : State) (x : BitVec 7) : Effect [.err] [] s (s.setErr x) :=
  ⟨fun r hr => s.readReg_setErr x r fun e => hr (e ▸ List.mem_singleton_self _), ⟨rfl, rfl⟩, ⟨rfl, rfl, rfl, rfl⟩,
    (List.append_nil _).symm⟩

/-- A flag is left set when it was set and its mask bit is 0. -/
theorem errCleared_getLsbD (err mask : BitVec 7) (k : Nat) :
    (errCleared err mask).getLsbD k = (err.getLsbD k && !mask.getLsbD k) := by
  rw [errCleared, BitVec.getLsbD_and, BitVec.getLsbD_not]
  by_cases hk : k < 7
  · rw [decide_eq_true hk, Bool.true_and]
  · rw [BitVec.getLsbD_of_ge err k (Nat.le_of_not_lt hk), Bool.false_and, Bool.false_and]

/-- Settles O30: ERR becomes `ERR & ~mask`, and nothing else is replaced. -/
theorem errClrClearsMaskedFlags : Obligations.ErrClrClearsMaskedFlags :=
  ⟨wordsOf 0x03, fun s mask => ⟨_, rfl, s.setErr_effect _, errCleared_getLsbD s.err mask⟩⟩

end Sys2Proof.Machine

/-! ## The events a command emits: `CorruptFrameIsNeverForwarded` -/

namespace Sys2Proof.Machine

/-- The events a command may emit, from the rules of its opcode (R70, R71, R81 to R143). -/
def MayEmit (i : Instr) (e : Event) : Prop :=
  match i with
  | .regRd _ | .pbufRd _ | .map _ _          => ∃ w, e = .rsp w
  | .frxByte _                               => ∃ valid magicErr crcErr seq, e = .frame valid magicErr crcErr seq
  | .ftxStart _ | .ftxByte _                 => ∃ b, e = .byte .frameOut b
  | .msgTx h                                 => ∃ b, e = .byte (halfPort h) b
  | .ackTxRaw _ | .ackTxFrame | .ackTxMsg    => ∃ b, e = .byte .ackOut b
  | .awStart _ _ | .awByte _ | .awTick       => ∃ slot result status, e = .ackw slot result status
  | .mrxByte _                               =>
    (∃ bus addr ch duty reply, e = .pwm bus addr ch duty reply) ∨ ∃ nodeOk seq, e = .msg nodeOk seq
  | .nop | .cfgWr _ _ | .errClr _ | .crcInit | .crcByte _ | .frxStart | .ackSeq _ | .mrxStart => False

/-- The events appended all meet P. -/
def EmitsOnly (P : Event → Prop) (s t : State) : Prop := ∃ es, Emits es s t ∧ ∀ e ∈ es, P e

section
variable {P : Event → Prop} {s a b : State}

theorem EmitsOnly.of_trace_eq (h : b.trace = a.trace) : EmitsOnly P a b := ⟨[], by simp [Emits, h], by simp⟩

theorem EmitsOnly.trans (hab : EmitsOnly P s a) (hbc : EmitsOnly P a b) : EmitsOnly P s b := by
  obtain ⟨es, he, hes⟩ := hab
  obtain ⟨fs, hf, hfs⟩ := hbc
  exact ⟨es ++ fs, by rw [Emits, hf, he, List.append_assoc], List.forall_mem_append.2 ⟨hes, hfs⟩⟩

theorem EmitsOnly.ite {c : Prop} [Decidable c] (ha : EmitsOnly P s a) (hb : EmitsOnly P s b) :
    EmitsOnly P s (if c then a else b) := by
  split
  · exact ha
  · exact hb

/-- A state that got one more event. -/
theorem EmitsOnly.of_event {e : Event} (h : a.trace = s.trace ++ [e]) (he : P e) : EmitsOnly P s a :=
  ⟨[e], h, by simpa using he⟩

/-- A state that got the bytes of one `Emit`. -/
theorem EmitsOnly.of_bytes {p : Port} {bs : List Byte} (h : a.trace = s.trace ++ bs.map (Event.byte p))
    (hp : ∀ x, P (.byte p x)) : EmitsOnly P s a :=
  ⟨_, h, by simpa using fun x _ => hp x⟩

end

theorem State.issueWrite_emitsOnly (b : Byte) (s : State) (w : ChannelWrite) :
    EmitsOnly (MayEmit (.mrxByte b)) s (s.issueWrite w) :=
  .ite (.of_trace_eq rfl) (.ite (.of_trace_eq rfl) (.of_event rfl (.inl ⟨_, _, _, _, _, rfl⟩)))

theorem State.issueWrites_emitsOnly (b : Byte) (ws : List ChannelWrite) (s : State) :
    EmitsOnly (MayEmit (.mrxByte b)) s (ws.foldl State.issueWrite s) := by
  induction ws generalizing s with
  | nil => exact .of_trace_eq rfl
  | cons w ws ih => exact (s.issueWrite_emitsOnly b w).trans (ih _)

theorem State.applyMessage_emitsOnly (b : Byte) (s : State) : EmitsOnly (MayEmit (.mrxByte b)) s s.applyMessage :=
  issueWrites_emitsOnly b (messageWrites s.mrx.mbuf) s

theorem State.finishMessage_emitsOnly (b : Byte) (s : State) : EmitsOnly (MayEmit (.mrxByte b)) s s.finishMessage :=
  .ite (.of_trace_eq rfl) (.of_event rfl (.inr ⟨_, _, rfl⟩))

/-- Every command emits events of its own kind alone: one that writes registers emits none, and one that branches emits
none or its own. -/
theorem exec_emitsOnly {i : Instr} {s t : State} (h : exec i s = .next t) : EmitsOnly (MayEmit i) s t := by
  cases i <;> obtain rfl := Host.Outcome.next.inj h
  case nop | errClr | crcInit | crcByte | frxStart | ackSeq | mrxStart => exact .of_trace_eq rfl
  case regRd | pbufRd | map => exact .of_event rfl ⟨_, rfl⟩
  case ackTxRaw => exact .of_bytes rfl fun x => ⟨x, rfl⟩
  case cfgWr => exact .ite (.of_trace_eq rfl) (.of_trace_eq rfl)
  case ftxStart | msgTx | ackTxFrame | ackTxMsg =>
    exact .ite (.of_trace_eq rfl) (.of_bytes rfl fun x => ⟨x, rfl⟩)
  case frxByte => exact .ite (.of_trace_eq rfl) (.of_event rfl ⟨_, _, _, _, rfl⟩)
  case ftxByte b =>
    have hb : EmitsOnly (MayEmit (.ftxByte b)) s (s.emit .frameOut [b]) := .of_bytes rfl fun x => ⟨x, rfl⟩
    exact .ite (.of_trace_eq rfl)
      (.ite (hb.trans (.of_bytes rfl fun x => ⟨x, rfl⟩)) (.of_bytes rfl fun x => ⟨x, rfl⟩))
  case awStart | awTick =>
    exact .ite (.of_trace_eq rfl) (.ite (.of_event rfl ⟨_, _, _, rfl⟩) (.of_trace_eq rfl))
  case awByte =>
    exact .ite (.of_trace_eq rfl) (.ite (.ite (.of_event rfl ⟨_, _, _, rfl⟩) (.of_trace_eq rfl)) (.of_trace_eq rfl))
  case mrxByte b =>
    have hstore : EmitsOnly (MayEmit (.mrxByte b)) s (s.setMrx (mrxStore s.mrx.cnt.toNat b s.mrx)) := .of_trace_eq rfl
    exact .ite ((hstore.trans (State.applyMessage_emitsOnly b _)).trans (State.finishMessage_emitsOnly b _))
      (.of_trace_eq rfl)

/-- Only `MSG_TX` emits a byte on a message port (R125). -/
theorem not_mayEmit_msg {i : Instr} (hi : ∀ h, i ≠ .msgTx h) (b : Byte) :
    ¬ MayEmit i (.byte .msg0 b) ∧ ¬ MayEmit i (.byte .msg1 b) := by
  cases i
  case msgTx h => exact absurd rfl (hi h)
  all_goals simp [MayEmit]

/-- Settles O21: with VALID = 0 both `MSG_TX` and `ACK_TX_FRAME` raise NOFRAME and emit nothing, and no other command
emits on a message port. -/
theorem corruptFrameIsNeverForwarded : Obligations.CorruptFrameIsNeverForwarded := by
  intro i s t hv h
  cases hr : raisedBy s i with
  | some f =>
    obtain rfl := Host.Outcome.next.inj ((exec_of_raisedBy hr).symm.trans h)
    exact ⟨[], by simp, by simp, fun _ => rfl⟩
  | none =>
    obtain ⟨es, he, hes⟩ := exec_emitsOnly h
    have hmsg : ∀ half, i ≠ .msgTx half := by
      rintro half rfl
      simp [raisedBy, hv] at hr
    have hack : i ≠ .ackTxFrame := by
      rintro rfl
      simp [raisedBy, hv] at hr
    exact ⟨es, he, fun b => (not_mayEmit_msg hmsg b).imp (mt (hes _)) (mt (hes _)), fun hi => absurd hi hack⟩

end Sys2Proof.Machine

/-! ## Frame codec: the CRC engine, `OneWrongByteChangesTheCrc` and `CrcCommandsWriteCrcOnly` -/

namespace Sys2Proof.Machine

/-! ### The CRC loses nothing of the register or of one byte (R89) -/

/-- The bit a round shifts out stands in bit 0 after it: 0x1021 has bit 0 set. -/
theorem crcRound_getLsbD_zero (r : Word16) : (crcRound r).getLsbD 0 = r.getLsbD 15 := by
  unfold crcRound
  split <;> simp_all

theorem shiftLeft_one_inj {r r' : Word16} (h15 : r.getLsbD 15 = r'.getLsbD 15) (h : r <<< 1 = r' <<< 1) : r = r' := by
  apply BitVec.eq_of_getLsbD_eq
  intro k hk
  obtain rfl | hk15 : k = 15 ∨ k + 1 < 16 := by omega
  · exact h15
  · have hbit := congrArg (·.getLsbD (k + 1)) h
    simpa [hk, hk15] using hbit

/-- A round can be undone: bit 0 says whether the polynomial was added, and the shift keeps the other bits. -/
theorem crcRound_injective : Function.Injective crcRound := by
  intro r r' h
  have h15 : r.getLsbD 15 = r'.getLsbD 15 := by rw [← crcRound_getLsbD_zero, h, crcRound_getLsbD_zero]
  refine shiftLeft_one_inj h15 ?_
  unfold crcRound at h
  rw [h15] at h
  split at h
  · exact (BitVec.xor_left_inj _).1 h
  · exact h

theorem crcRounds_injective (n : Nat) : Function.Injective (crcRounds n) := by
  induction n with
  | zero => exact fun _ _ h => h
  | succ n ih => exact ih.comp crcRound_injective

theorem crcUpdate_left_injective (b : Byte) : Function.Injective (crcUpdate · b) := fun _ _ h =>
  (BitVec.xor_left_inj _).1 (crcRounds_injective 8 h)

theorem crcUpdate_right_injective (reg : Word16) : Function.Injective (crcUpdate reg) := by
  intro a b h
  have hshift : a.setWidth 16 <<< 8 = b.setWidth 16 <<< 8 := (BitVec.xor_right_inj _).1 (crcRounds_injective 8 h)
  apply BitVec.eq_of_getLsbD_eq
  intro k hk
  have hbit := congrArg (·.getLsbD (k + 8)) hshift
  have hk16 : k + 8 < 16 := by omega
  simpa [hk, hk16] using hbit

theorem crcOf_cons (init : Word16) (b : Byte) (bs : List Byte) :
    crcOf init (b :: bs) = crcOf (crcUpdate init b) bs := rfl

/-- Two registers that differ still differ after the same bytes. -/
theorem crcOf_left_injective (bs : List Byte) : Function.Injective (crcOf · bs) := by
  induction bs with
  | nil => exact fun _ _ h => h
  | cons b bs ih => exact ih.comp (crcUpdate_left_injective b)

/-- Settles O32: the wrong byte makes the register differ, and the bytes after it keep it different. -/
theorem oneWrongByteChangesTheCrc : Obligations.OneWrongByteChangesTheCrc := by
  intro init xs ys a b hab h
  rw [crcOf_append, crcOf_append, crcOf_cons, crcOf_cons] at h
  exact hab (crcUpdate_right_injective _ (crcOf_left_injective ys h))

/-! ### The two commands of the engine (R90, R91) -/

theorem State.setCrc_effect (s : State) (x : Word16) : Effect [.crc] [] s (s.setCrc x) :=
  ⟨fun _ hr => s.readReg_setCrc x fun e => hr (e ▸ List.mem_singleton_self _), ⟨rfl, rfl⟩, ⟨rfl, rfl, rfl, rfl⟩,
    (List.append_nil _).symm⟩

/-- Settles O33: both commands replace CRC alone, and the update is the CRC taken bit by bit. -/
theorem crcCommandsWriteCrcOnly : Obligations.CrcCommandsWriteCrcOnly :=
  ⟨wordsOf 0x08, wordsOf 0x09, fun s => ⟨⟨_, rfl, rfl, s.setCrc_effect _⟩,
    fun b => ⟨_, rfl, crcUpdateIsBitSerial s.crc b, s.setCrc_effect _⟩⟩⟩

end Sys2Proof.Machine

/-! ## What a register reads, and commands that replace one register or read a byte: `StartCommandsRearm` and
`PbufRdAnswersOneByte` -/

namespace Sys2Proof.Machine

/-- The part of the state a register shows (R21, R22). -/
def partOf : Reg → Part
  | .cfg _ => .cfg
  | .crc => .crc
  | .frxCnt | .fstat | .fseq | .fmagicRcvd | .frxCrc | .fcrcRcvd => .frx
  | .ftxStat | .ftxCnt | .ftxCrc => .ftx
  | .awStat | .awExp | .awElapsed | .awLimit | .awWinLo | .awWinHi => .aw
  | .path => .path
  | .atxSeq => .atxSeq
  | .mrxCnt | .mstat | .mseq => .mrx
  | .err => .err

/-- A register reads the same in two states with the same part. -/
theorem readReg_of_kept {s t : State} {r : Reg} (h : (partOf r).Kept s t) : t.readReg r = s.readReg r := by
  cases r <;> simp only [partOf, Part.Kept] at h <;> simp only [State.readReg, h]

/-- A command leaves every register whose part it does not write. -/
theorem exec_readReg {i : Instr} {s t : State} {r : Reg} (h : exec i s = .next t) (hr : partOf r ∉ writtenParts i) :
    t.readReg r = s.readReg r :=
  readReg_of_kept (exec_kept h hr)

/-! ### The commands that start a frame or a message (R92, R139) -/

/-- Replacing FRX_CNT changes nothing else. -/
theorem State.setFrx_cnt_effect (s : State) (n : BitVec 10) :
    Effect [.frxCnt] [] s (s.setFrx { s.frx with cnt := n }) := by
  refine ⟨fun r hr => ?_, ⟨rfl, rfl⟩, ⟨rfl, rfl, rfl, rfl⟩, (List.append_nil _).symm⟩
  cases r
  case frxCnt => exact absurd (List.mem_singleton_self _) hr
  all_goals rfl

/-- Replacing MRX_CNT changes nothing else. -/
theorem State.setMrx_cnt_effect (s : State) (n : BitVec 9) :
    Effect [.mrxCnt] [] s (s.setMrx { s.mrx with cnt := n }) := by
  refine ⟨fun r hr => ?_, ⟨rfl, rfl⟩, ⟨rfl, rfl, rfl, rfl⟩, (List.append_nil _).symm⟩
  cases r
  case mrxCnt => exact absurd (List.mem_singleton_self _) hr
  all_goals rfl

/-- Settles O34: each command replaces its receiver's counter alone. -/
theorem startCommandsRearm : Obligations.StartCommandsRearm :=
  ⟨wordsOf 0x10, wordsOf 0x40, fun s =>
    ⟨⟨_, rfl, rfl, s.setFrx_cnt_effect 0⟩, ⟨_, rfl, rfl, s.setMrx_cnt_effect 0⟩⟩⟩

/-! ### Reading a payload byte (R95) -/

/-- Settles O36: the response is the byte zero-extended, and a response changes nothing. -/
theorem pbufRdAnswersOneByte : Obligations.PbufRdAnswersOneByte :=
  ⟨wordsOf 0x12, fun s _ => ⟨_, _, rfl, s.respond_effect _, BitVec.toNat_setWidth_of_le (by decide)⟩⟩

end Sys2Proof.Machine

/-! ## The frame transmitter: `FtxStartOpensAFrame`, `FtxByteSendsPayload` and `TransmitterEmitsReferenceEncoding` -/

namespace Sys2Proof.Machine

/-! ### One command of the transmitter (R97, R98) -/

/-- Emitting bytes and replacing the transmitter changes the transmitter's registers alone. -/
theorem State.emit_setFtx_effect (s : State) (p : Port) (bs : List Byte) (x : FrameTx) :
    Effect [.ftxStat, .ftxCnt, .ftxCrc] (bs.map (.byte p)) s ((s.emit p bs).setFtx x) := by
  refine ⟨fun r hr => ?_, ⟨rfl, rfl⟩, ⟨rfl, rfl, rfl, rfl⟩, rfl⟩
  cases r
  case ftxStat | ftxCnt | ftxCrc => exact absurd hr (by decide)
  all_goals rfl

/-- With no frame in progress `FTX_START` emits the header and opens a frame. -/
theorem exec_ftxStart_of_idle {s : State} (h : s.ftx.active = false) (seq : Word32) :
    exec (.ftxStart seq) s = .next ((s.emit .frameOut (frameHeader s.cfg seq)).setFtx
      { active := true, cnt := 0, crc := crcOf s.cfg.crcInit (frameHeader s.cfg seq) }) :=
  congrArg _ (if_neg (by simp [h]))

/-- `FTX_BYTE` of one of the first 511 payload bytes emits it and counts it. -/
theorem exec_ftxByte_of_ne_last {s : State} (ha : s.ftx.active = true) (hc : s.ftx.cnt ≠ 511) (b : Byte) :
    exec (.ftxByte b) s = .next ((s.emit .frameOut [b]).setFtx
      { active := true, cnt := s.ftx.cnt + 1, crc := crcUpdate s.ftx.crc b }) :=
  congrArg _ ((if_neg (by simp [ha])).trans (if_neg hc))

/-- `FTX_BYTE` of the 512th payload byte emits it and the CRC, low byte first, and closes the frame. -/
theorem exec_ftxByte_of_last {s : State} (ha : s.ftx.active = true) (hc : s.ftx.cnt = 511) (b : Byte) :
    exec (.ftxByte b) s = .next ((s.emit .frameOut (b :: leBytes 2 (crcUpdate s.ftx.crc b))).setFtx
      { active := false, cnt := 0, crc := crcUpdate s.ftx.crc b }) := by
  have hemit : (s.emit .frameOut [b]).emit .frameOut (leBytes 2 (crcUpdate s.ftx.crc b)) =
      s.emit .frameOut (b :: leBytes 2 (crcUpdate s.ftx.crc b)) := by
    simp [State.setTrace]
  rw [← hemit]
  exact congrArg _ ((if_neg (by simp [ha])).trans (if_pos hc))

/-- Settles O37: outside a frame the header is emitted and the frame opened; during one the row of FTX_BUSY is met. -/
theorem ftxStartOpensAFrame : Obligations.FtxStartOpensAFrame := by
  refine ⟨wordsOf 0x18, fun s seq => ⟨fun hidle => ?_, fun hbusy => ?_⟩⟩
  · exact ⟨_, frameHeader s.cfg seq, exec_ftxStart_of_idle hidle seq, rfl, s.emit_setFtx_effect _ _ _, rfl, rfl, rfl⟩
  · have hraise : raisedBy s (.ftxStart seq) = some .ftxBusy := if_pos hbusy
    exact ⟨_, exec_of_raisedBy hraise, s.raise_effect _, s.raise_err _⟩

/-- Settles O38: the payload byte is the last one or not; outside a frame the row of FTX_IDLE is met. -/
theorem ftxByteSendsPayload : Obligations.FtxByteSendsPayload := by
  refine ⟨wordsOf 0x19, fun s b => ⟨fun hactive => ?_, fun hidle => ?_⟩⟩
  · by_cases hc : s.ftx.cnt = 511
    · obtain ⟨hregs, hbuffers, houtside, htrace⟩ := s.emit_setFtx_effect .frameOut
        (b :: leBytes 2 (crcUpdate s.ftx.crc b)) { active := false, cnt := 0, crc := crcUpdate s.ftx.crc b }
      exact ⟨_, exec_ftxByte_of_last hactive hc b, hregs, hbuffers, houtside, rfl, fun hne => absurd hc hne,
        fun _ => ⟨rfl, rfl, htrace⟩⟩
    · obtain ⟨hregs, hbuffers, houtside, htrace⟩ := s.emit_setFtx_effect .frameOut [b]
        { active := true, cnt := s.ftx.cnt + 1, crc := crcUpdate s.ftx.crc b }
      exact ⟨_, exec_ftxByte_of_ne_last hactive hc b, hregs, hbuffers, houtside, rfl, fun _ => ⟨rfl, rfl, htrace⟩,
        fun he => absurd he hc⟩
  · have hraise : raisedBy s (.ftxByte b) = some .ftxIdle := if_neg (by simp [hidle])
    exact ⟨_, exec_of_raisedBy hraise, s.raise_effect _, s.raise_err _⟩

/-! ### Commands in a row (R54) -/

theorem execAll_cons_of_next {i : Instr} {is : List Instr} {s t : State} (h : exec i s = .next t) :
    execAll (i :: is) s = execAll is t := by
  simp [execAll, h]

theorem execAll_append_of_next {is js : List Instr} {s t : State} (h : execAll is s = .next t) :
    execAll (is ++ js) s = execAll js t := by
  induction is generalizing s with
  | nil => rw [Host.Outcome.next.inj h, List.nil_append]
  | cons i is ih =>
    obtain ⟨u, hu⟩ := exec_next i s
    rw [execAll_cons_of_next hu] at h
    rw [List.cons_append, execAll_cons_of_next hu, ih h]

theorem Emits.trans {es fs : List Event} {s t u : State} (hst : Emits es s t) (htu : Emits fs t u) :
    Emits (es ++ fs) s u := by
  rw [Emits, htu, hst, List.append_assoc]

/-! ### A whole frame (R96) -/

/-- The payload bytes that complete the frame in progress are emitted, then the CRC of the frame with them, and the
frame is closed. -/
theorem execAll_ftxByte {bs : List Byte} {s : State} (ha : s.ftx.active = true)
    (hn : s.ftx.cnt.toNat + bs.length = 512) (hbs : bs ≠ []) :
    ∃ t, execAll (bs.map .ftxByte) s = .next t ∧ t.ftx.active = false ∧
      Emits ((bs ++ leBytes 2 (crcOf s.ftx.crc bs)).map (.byte .frameOut)) s t := by
  induction bs generalizing s with
  | nil => exact absurd rfl hbs
  | cons b bs ih =>
    rw [List.length_cons] at hn
    obtain ⟨u, hu, -, -, -, hcrc, hmiddle, hlast⟩ := (ftxByteSendsPayload.2 s b).1 ha
    by_cases hnil : bs = []
    · subst hnil
      obtain ⟨hclosed, -, htrace⟩ := hlast (BitVec.eq_of_toNat_eq (Nat.succ.inj hn))
      rw [hcrc] at htrace
      exact ⟨u, execAll_cons_of_next hu, hclosed, htrace⟩
    · have hpos : 0 < bs.length := List.length_pos_iff.2 hnil
      obtain ⟨hactive, hcnt, htrace⟩ := hmiddle (by bv_omega)
      obtain ⟨t, ht, hclosed, hrest⟩ := ih hactive (by rw [hcnt]; bv_omega) hnil
      rw [hcrc, ← crcOf_cons] at hrest
      exact ⟨t, (execAll_cons_of_next hu).trans ht, hclosed, htrace.trans hrest⟩

/-- Settles O39: `FTX_START` emits the header, and the 512 bytes complete the frame it opens. -/
theorem transmitterEmitsReferenceEncoding : Obligations.TransmitterEmitsReferenceEncoding := by
  intro s seq p hidle hp
  obtain ⟨u, header, hu, hbytes, ⟨-, -, -, hstart⟩, hactive, hcnt, hcrc⟩ := (ftxStartOpensAFrame.2 s seq).1 hidle
  have hheader : header = leBytes 2 s.cfg.frameMagic ++ leBytes 4 seq := hbytes
  obtain ⟨t, ht, hclosed, hrest⟩ := execAll_ftxByte (bs := p) hactive (by rw [hcnt, hp]; rfl) (by rintro rfl; cases hp)
  refine ⟨t, (execAll_cons_of_next hu).trans ht, hclosed, ?_⟩
  have hall := hstart.trans hrest
  rwa [hcrc, ← crcOf_append, ← List.map_append, ← List.append_assoc, hheader] at hall

end Sys2Proof.Machine

/-! ## The frame receiver's bytes: `FrxByteReceivesAFrame` and `ReceiverAcceptsReferenceEncoding` -/

namespace Sys2Proof.Machine

/-! ### The number a little-endian byte list spells (R11, R45) -/

theorem fromLe_append_singleton (bs : List Byte) (b : Byte) :
    fromLe (bs ++ [b]) = fromLe bs + 256 ^ bs.length * b.toNat := by
  induction bs with
  | nil => simp [fromLe]
  | cons x xs ih =>
    rw [List.cons_append, fromLe, ih, fromLe, List.length_cons, Nat.pow_succ]
    ring

/-- The low n bytes of a field spell its value below 256 to the n. -/
theorem fromLe_leBytes {w : Nat} (n : Nat) (v : BitVec w) : fromLe (leBytes n v) = v.toNat % 256 ^ n := by
  induction n with
  | zero => simp [leBytes, fromLe, Nat.mod_one]
  | succ n ih =>
    have hbyte : (v.extractLsb' (8 * n) 8).toNat = v.toNat / 256 ^ n % 256 := by
      rw [BitVec.extractLsb'_toNat, Nat.shiftRight_eq_div_pow, Nat.pow_mul]
    rw [leBytes_succ, fromLe_append_singleton, ih, leBytes_length, hbyte, Nat.pow_succ, Nat.mod_mul]

/-- All the bytes of a field say what it holds. -/
theorem leBytes_injective {w : Nat} (n : Nat) (h : 2 ^ w ≤ 256 ^ n) :
    Function.Injective (leBytes n : BitVec w → List Byte) := by
  intro v v' he
  have hval := congrArg fromLe he
  rw [fromLe_leBytes, fromLe_leBytes, Nat.mod_eq_of_lt (v.isLt.trans_le h),
    Nat.mod_eq_of_lt (v'.isLt.trans_le h)] at hval
  exact BitVec.eq_of_toNat_eq hval

/-- The high byte of a field of two bytes, written after the low one. -/
theorem setByte_one_toNat (v : Word16) (b : Byte) : (setByte v 1 b).toNat = v.toNat % 256 + 256 * b.toNat := by
  have hbytes := congrArg fromLe (leBytes_succ_setByte v (j := 1) b (by decide))
  rw [fromLe_append_singleton, fromLe_leBytes, fromLe_leBytes, leBytes_length] at hbytes
  rwa [Nat.mod_eq_of_lt (show _ < 256 ^ (1 + 1) from (setByte v 1 b).isLt)] at hbytes

/-! ### What one byte of a frame does besides storing itself (R93) -/

section
variable {b : Byte} {s t : State}

theorem exec_frxByte_path (h : exec (.frxByte b) s = .next t) :
    t.path = if s.frx.cnt.toNat = 0 then ⟨false, false⟩ else s.path := by
  obtain rfl := Host.Outcome.next.inj h
  split <;> rfl

theorem exec_frxByte_cfg (h : exec (.frxByte b) s = .next t) : t.cfg = s.cfg :=
  exec_kept (p := .cfg) h (by simp [writtenParts])

theorem exec_frxByte_outsideKept (h : exec (.frxByte b) s = .next t) : OutsideKept s t := by
  obtain rfl := Host.Outcome.next.inj h
  split <;> exact ⟨rfl, rfl, rfl, rfl⟩

/-- No byte but the last emits an event. -/
theorem exec_frxByte_emits_nothing (hk : s.frx.cnt.toNat ≤ 518) (h : exec (.frxByte b) s = .next t) : Emits [] s t := by
  obtain rfl := Host.Outcome.next.inj h
  rw [if_pos hk, Emits, List.append_nil]
  rfl

/-- The last byte emits the verdict it leaves in the flags. -/
theorem exec_frxByte_emits_verdict (hk : s.frx.cnt.toNat = 519) (h : exec (.frxByte b) s = .next t) :
    Emits [.frame t.frx.valid t.frx.magicErr t.frx.crcErr t.frx.seq] s t := by
  obtain rfl := Host.Outcome.next.inj h
  rw [if_neg (by omega)]
  rfl

/-- `FRX_BYTE` changes no register but the receiver's, and at byte 0 the path flags. -/
theorem exec_frxByte_regsKept {changed : List Reg} (h : exec (.frxByte b) s = .next t)
    (hpath : .path ∈ changed ∨ 0 < s.frx.cnt.toNat)
    (hr : ∀ r ∈ [Reg.frxCnt, .fstat, .fseq, .fmagicRcvd, .frxCrc, .fcrcRcvd], r ∉ changed →
      t.readReg r = s.readReg r) : RegsKept changed s t := by
  intro r hc
  cases r
  case frxCnt | fstat | fseq | fmagicRcvd | frxCrc | fcrcRcvd => exact hr _ (by decide) hc
  case path =>
    have hpos := hpath.resolve_left hc
    exact congrArg pathWord ((exec_frxByte_path h).trans (if_neg (by omega)))
  all_goals exact exec_readReg h (by simp [partOf, writtenParts])

/-! ### Each offset of a frame (R93) -/

/-- Byte 0: VALID and the path flags are cleared, and the CRC starts from the configured value. -/
theorem exec_frxByte_magicLow (hk : s.frx.cnt.toNat = 0) (h : exec (.frxByte b) s = .next t) :
    RegsKept [.frxCnt, .fstat, .path, .frxCrc, .fmagicRcvd] s t ∧ t.frx.valid = false ∧ t.path = ⟨false, false⟩ ∧
      t.frx.crc = crcUpdate s.cfg.crcInit b ∧ t.frx.magicRcvd.toNat = b.toNat := by
  have hfrx := exec_frxByte_frx h
  rw [hk, frxStore_zero] at hfrx
  refine ⟨exec_frxByte_regsKept h (.inl (by decide)) ?_, by rw [hfrx], ?_, by rw [hfrx], ?_⟩
  · simp [State.readReg, hfrx]
  · rw [exec_frxByte_path h, if_pos hk]
  · rw [hfrx]
    exact BitVec.toNat_setWidth_of_le (by decide)

/-- Byte 1: the high byte of the magic. -/
theorem exec_frxByte_magicHigh (hk : s.frx.cnt.toNat = 1) (h : exec (.frxByte b) s = .next t) :
    RegsKept [.frxCnt, .frxCrc, .fmagicRcvd] s t ∧ t.frx.crc = crcUpdate s.frx.crc b ∧
      t.frx.magicRcvd.toNat = s.frx.magicRcvd.toNat % 256 + 256 * b.toNat := by
  have hfrx := exec_frxByte_frx h
  rw [hk, frxStore_one] at hfrx
  refine ⟨exec_frxByte_regsKept h (.inr (by omega)) ?_, by rw [hfrx], ?_⟩
  · simp [State.readReg, fstatWord, hfrx]
  · rw [hfrx]
    exact setByte_one_toNat _ _

/-- Bytes 2 to 5: byte j of the seq, the first one in place of the whole field. -/
theorem exec_frxByte_seq {j : Nat} (hj : j < 4) (hk : s.frx.cnt.toNat = 2 + j) (h : exec (.frxByte b) s = .next t) :
    RegsKept [.frxCnt, .frxCrc, .fseq] s t ∧ t.frx.crc = crcUpdate s.frx.crc b ∧
      t.frx.seq = if j = 0 then b.setWidth 32 else setByte s.frx.seq j b := by
  have hfrx := exec_frxByte_frx h
  rw [hk, frxStore_seq _ _ _ hj] at hfrx
  refine ⟨exec_frxByte_regsKept h (.inr (by omega)) ?_, by rw [hfrx], by rw [hfrx]⟩
  simp [State.readReg, fstatWord, hfrx]

/-- Bytes 6 to 517: payload byte j. -/
theorem exec_frxByte_payload {j : Nat} (hj : j < 512) (hk : s.frx.cnt.toNat = 6 + j)
    (h : exec (.frxByte b) s = .next t) :
    RegsKept [.frxCnt, .frxCrc] s t ∧ t.frx.crc = crcUpdate s.frx.crc b ∧
      t.frx.pbuf = s.frx.pbuf.setIfInBounds j b := by
  have hfrx := exec_frxByte_frx h
  rw [hk, frxStore_payload _ _ _ hj] at hfrx
  refine ⟨exec_frxByte_regsKept h (.inr (by omega)) ?_, by rw [hfrx], by rw [hfrx]⟩
  simp [State.readReg, fstatWord, hfrx]

/-- Byte 518: the low byte of the received CRC, in place of the whole field. -/
theorem exec_frxByte_crcLow (hk : s.frx.cnt.toNat = 518) (h : exec (.frxByte b) s = .next t) :
    RegsKept [.frxCnt, .fcrcRcvd] s t ∧ t.frx.crcRcvd = b.setWidth 16 := by
  have hfrx := exec_frxByte_frx h
  rw [hk, frxStore_crcLow] at hfrx
  refine ⟨exec_frxByte_regsKept h (.inr (by omega)) ?_, by rw [hfrx]⟩
  simp [State.readReg, fstatWord, hfrx]

/-- Byte 519: the high byte of the received CRC, and the verdict. -/
theorem exec_frxByte_crcHigh (hk : s.frx.cnt.toNat = 519) (h : exec (.frxByte b) s = .next t) :
    t.frx = { verdict s.cfg { s.frx with crcRcvd := setByte s.frx.crcRcvd 1 b } with cnt := 0 } := by
  rw [exec_frxByte_frx h, hk, frxStore_crcHigh, if_pos rfl]

theorem exec_frxByte_crcHigh_regsKept (hk : s.frx.cnt.toNat = 519) (h : exec (.frxByte b) s = .next t) :
    RegsKept [.frxCnt, .fcrcRcvd, .fstat] s t := by
  refine exec_frxByte_regsKept h (.inr (by omega)) ?_
  simp [State.readReg, exec_frxByte_crcHigh hk h, verdict]

end

/-! ### Fields no byte of an offset writes -/

theorem frxStore_pbuf (cfg : CfgRegs) (b : Byte) (f : FrameRx) {k : Nat} (hk : k < 6 ∨ 517 < k) :
    (frxStore cfg k b f).pbuf = f.pbuf := by
  unfold frxStore
  split_ifs
  iterate 4 · rfl
  · omega
  · rfl
  · rfl

theorem frxStore_errs (cfg : CfgRegs) (b : Byte) (f : FrameRx) {k : Nat} (hk : k ≤ 518) :
    (frxStore cfg k b f).magicErr = f.magicErr ∧ (frxStore cfg k b f).crcErr = f.crcErr := by
  unfold frxStore
  split_ifs
  iterate 6 · exact ⟨rfl, rfl⟩
  · omega

/-- Settles O35: the offsets exclude each other, and each has its equation of what the byte stores. -/
theorem frxByteReceivesAFrame : Obligations.FrxByteReceivesAFrame := by
  refine ⟨wordsOf 0x11, fun s b hr => ?_⟩
  obtain ⟨t, h⟩ := exec_next (.frxByte b) s
  have hrange : s.frx.cnt.toNat ≤ 519 := hr.frxCnt
  have hfrx := exec_frxByte_frx h
  have hmrx : t.mrx = s.mrx := exec_kept (p := .mrx) h (by simp [writtenParts])
  refine ⟨t, h, by rw [hmrx], exec_frxByte_outsideKept h, ?_, fun hk => ?_, fun hk => ?_,
    fun hk => exec_frxByte_magicLow hk h, fun hk => exec_frxByte_magicHigh hk h, fun hk => ?_, fun hk => ?_,
    fun hk => ?_, fun hk => ?_⟩
  · rw [hfrx]
    dsimp only
    split
    · rfl
    · bv_omega
  · have hbelow : s.frx.cnt.toNat ≤ 518 := by omega
    rw [hfrx]
    exact ⟨exec_frxByte_emits_nothing hbelow h, frxStore_errs s.cfg b s.frx hbelow⟩
  · rw [hfrx]
    exact frxStore_pbuf s.cfg b s.frx hk
  · obtain ⟨hkept, hcrc, hseq⟩ := exec_frxByte_seq (j := s.frx.cnt.toNat - 2) (by omega) (by omega) h
    refine ⟨hkept, hcrc, fun h2 => ?_, fun h2 j hj => ?_⟩
    · rw [hseq, if_pos (by omega)]
      exact BitVec.toNat_setWidth_of_le (by decide)
    · rw [hseq, if_neg (by omega)]
      exact extractLsb'_setByte s.frx.seq _ j b (by omega) (by omega)
  · obtain ⟨hkept, hcrc, hpbuf⟩ := exec_frxByte_payload (j := s.frx.cnt.toNat - 6) (by omega) (by omega) h
    refine ⟨hkept, hcrc, fun j hj => ?_⟩
    simp only [hpbuf, Vector.getElem_setIfInBounds hj, eq_comm]
  · obtain ⟨hkept, hrcvd⟩ := exec_frxByte_crcLow hk h
    rw [hrcvd]
    exact ⟨hkept, BitVec.toNat_setWidth_of_le (by decide)⟩
  · have hlast := exec_frxByte_crcHigh hk h
    have hverdict := exec_frxByte_emits_verdict hk h
    have hseq : t.frx.seq = s.frx.seq := by rw [hlast]; rfl
    rw [hseq] at hverdict
    refine ⟨exec_frxByte_crcHigh_regsKept hk h, ?_, ?_, ?_, ?_, hverdict⟩
    · rw [hlast]
      exact setByte_one_toNat _ _
    all_goals simp [hlast, verdict]

/-! ### A whole frame received (R96, R99) -/

/-- The frame in progress has had exactly these bytes, of the 518 the CRC covers. -/
structure State.Received (init : Word16) (bs : List Byte) (s : State) : Prop where
  cnt  : s.frx.cnt.toNat = bs.length
  crc  : bs ≠ [] → s.frx.crc = crcOf init bs
  held : (heldBytes s.frx).take bs.length = bs

/-- A receiver at byte 0 has had no byte. -/
theorem State.received_nil {s : State} (h : s.frx.cnt = 0) (init : Word16) : s.Received init [] :=
  ⟨by rw [h]; rfl, fun hne => absurd rfl hne, rfl⟩

/-- One more byte. -/
theorem State.Received.frxByte {bs : List Byte} {b : Byte} {s t : State} (hs : s.Received s.cfg.crcInit bs)
    (hn : bs.length ≤ 517) (h : exec (.frxByte b) s = .next t) : t.Received s.cfg.crcInit (bs ++ [b]) := by
  have hk : s.frx.cnt.toNat ≤ 517 := hs.cnt ▸ hn
  have hfrx := exec_frxByte_frx h
  rw [if_neg (by omega)] at hfrx
  have hcrc : t.frx.crc = crcUpdate (if s.frx.cnt.toNat = 0 then s.cfg.crcInit else s.frx.crc) b := by
    rw [hfrx, ← frxStore_crc s.cfg b s.frx hk]
  refine ⟨?_, fun _ => ?_, ?_⟩
  · have hcnt := hs.cnt
    rw [hfrx, List.length_append, List.length_singleton]
    bv_omega
  · rw [hcrc, hs.cnt, crcOf_append]
    by_cases hnil : bs = []
    · subst hnil
      rfl
    · rw [if_neg (mt List.length_eq_zero_iff.1 hnil), hs.crc hnil]
      rfl
  · have hheld := take_heldBytes_frxStore s.cfg b s.frx hk
    rw [hs.cnt, hs.held] at hheld
    rw [hfrx, hs.cnt, List.length_append]
    exact hheld

/-- The bytes before the CRC field are received one after the other, with no event and no change of configuration. -/
theorem State.Received.execAll_frxBytes {pre bs : List Byte} {s : State} (hs : s.Received s.cfg.crcInit pre)
    (hn : pre.length + bs.length ≤ 518) :
    ∃ t, execAll (frxBytes bs) s = .next t ∧ t.Received s.cfg.crcInit (pre ++ bs) ∧ t.cfg = s.cfg ∧ Emits [] s t := by
  induction bs generalizing pre s with
  | nil => exact ⟨s, rfl, by rwa [List.append_nil], rfl, (List.append_nil _).symm⟩
  | cons b bs ih =>
    rw [List.length_cons] at hn
    obtain ⟨u, hu⟩ := exec_next (.frxByte b) s
    have hcfg : u.cfg = s.cfg := exec_frxByte_cfg hu
    have hquiet : Emits [] s u := exec_frxByte_emits_nothing (by have := hs.cnt; omega) hu
    have hnext := hs.frxByte (by omega) hu
    rw [← hcfg] at hnext
    obtain ⟨t, ht, hreceived, hcfg', hquiet'⟩ := ih hnext (by rw [List.length_append, List.length_singleton]; omega)
    rw [hcfg, List.append_assoc] at hreceived
    exact ⟨t, (execAll_cons_of_next hu).trans ht, hreceived, hcfg'.trans hcfg, hquiet.trans hquiet'⟩

/-- The 518 bytes held say what each field holds. -/
theorem State.Received.fields {init magic : Word16} {seq : Word32} {p : List Byte} {s : State}
    (hs : s.Received init (leBytes 2 magic ++ leBytes 4 seq ++ p)) (hp : p.length = 512) :
    s.frx.magicRcvd = magic ∧ s.frx.seq = seq ∧ s.frx.pbuf.toList = p := by
  have hheld := hs.held
  rw [List.take_of_length_le (by simp [heldBytes_length, hp]), heldBytes] at hheld
  obtain ⟨hheader, hpbuf⟩ := List.append_inj hheld (by simp)
  obtain ⟨hmagic, hseq⟩ := List.append_inj hheader (by simp)
  exact ⟨leBytes_injective 2 (by decide) hmagic, leBytes_injective 4 (by decide) hseq, hpbuf⟩

/-- The two bytes of the CRC field, low byte first, spell the CRC (R93). -/
theorem setByte_one_setWidth_extractLsb' (c : Word16) :
    setByte ((c.extractLsb' 0 8).setWidth 16) 1 (c.extractLsb' 8 8) = c := by
  refine leBytes_injective 2 (by decide) ?_
  rw [leBytes_succ_setByte _ _ (by decide), leBytes_one_setWidth _ (by decide)]
  rfl

/-- The CRC field of the bytes received, after them, ends the frame with the verdict that the magic decides. -/
theorem execAll_frxBytes_crc {s : State} (hk : s.frx.cnt.toNat = 518) (hmagic : s.frx.magicRcvd = s.cfg.frameMagic) :
    ∃ t, execAll (frxBytes (leBytes 2 s.frx.crc)) s = .next t ∧ t.frx.valid = true ∧ t.frx.cnt = 0 ∧
      t.frx.seq = s.frx.seq ∧ t.frx.pbuf = s.frx.pbuf ∧ Emits [.frame true false false s.frx.seq] s t := by
  obtain ⟨u, hu⟩ := exec_next (.frxByte (s.frx.crc.extractLsb' 0 8)) s
  obtain ⟨t, ht⟩ := exec_next (.frxByte (s.frx.crc.extractLsb' 8 8)) u
  have hcfg : u.cfg = s.cfg := exec_frxByte_cfg hu
  have hufrx := exec_frxByte_frx hu
  rw [hk, if_neg (by decide), frxStore_crcLow] at hufrx
  have hcnt : u.frx.cnt.toNat = 519 := by
    rw [hufrx]
    bv_omega
  have htfrx := exec_frxByte_crcHigh hcnt ht
  have hrcvd : setByte u.frx.crcRcvd 1 (s.frx.crc.extractLsb' 8 8) = u.frx.crc := by
    rw [hufrx]
    exact setByte_one_setWidth_extractLsb' s.frx.crc
  rw [hrcvd, hcfg] at htfrx
  have hevents := (exec_frxByte_emits_nothing hk.le hu).trans (exec_frxByte_emits_verdict hcnt ht)
  refine ⟨t, (execAll_cons_of_next hu).trans (execAll_cons_of_next ht), ?_⟩
  simpa [htfrx, hufrx, verdict, hmagic] using hevents

/-- Settles O40: the 518 bytes before the CRC field fill the receiver's fields, and the field is the CRC of them. -/
theorem receiverAcceptsReferenceEncoding : Obligations.ReceiverAcceptsReferenceEncoding := by
  intro s seq p hc hp
  obtain ⟨u, hu, hreceived, hcfg, hquiet⟩ := (State.received_nil hc s.cfg.crcInit).execAll_frxBytes
    (bs := frameHeader s.cfg seq ++ p) (by simp [frameHeader, hp])
  obtain ⟨hmagic, hseq, hpbuf⟩ := hreceived.fields hp
  have hcrc := hreceived.crc (by simp [frameHeader, leBytes_two])
  have hcnt : u.frx.cnt.toNat = 518 := by rw [hreceived.cnt]; simp [frameHeader, hp]
  obtain ⟨t, ht, hvalid, hend, hseq', hpbuf', hevents⟩ := execAll_frxBytes_crc hcnt (by rw [hmagic, hcfg])
  rw [hcrc] at ht
  refine ⟨t, ?_, hvalid, hend, hseq'.trans hseq, by rw [hpbuf', hpbuf], by rw [← hseq]; exact hquiet.trans hevents⟩
  rw [frameBytes, frxBytes, List.map_append]
  exact (execAll_append_of_next hu).trans ht

end Sys2Proof.Machine

/-! ## Acknowledgement builder: `AckSeqWritesAtxSeq`, `AckTxRawEmitsSevenBytes`, `AckTxFrameReportsBothPaths` and
`AckTxMsgReportsTheNode` -/

namespace Sys2Proof.Machine

/-- Replacing ATXSEQ changes nothing else. -/
theorem State.setAtxSeq_effect (s : State) (x : Word32) : Effect [.atxSeq] [] s (s.setAtxSeq x) := by
  refine ⟨fun r hr => ?_, ⟨rfl, rfl⟩, ⟨rfl, rfl, rfl, rfl⟩, (List.append_nil _).symm⟩
  cases r
  case atxSeq => exact absurd (List.mem_singleton_self _) hr
  all_goals rfl

/-- Settles O41: the meaning replaces ATXSEQ alone. -/
theorem ackSeqWritesAtxSeq : Obligations.AckSeqWritesAtxSeq :=
  ⟨wordsOf 0x28, fun s seq => ⟨_, rfl, rfl, s.setAtxSeq_effect seq⟩⟩

/-- Emitting an acknowledgement appends its seven bytes and changes nothing (R63, R108). -/
theorem State.emit_makeAck_effect (s : State) (seq : Word32) (status : Byte) :
    Effect [] (ackEvents s.cfg.ackMagicTx seq status) s (s.emit .ackOut (makeAck s.cfg seq status)) :=
  s.emit_effect .ackOut (makeAck s.cfg seq status)

/-- Settles O42: the acknowledgement is built from ATXSEQ and the status given. -/
theorem ackTxRawEmitsSevenBytes : Obligations.AckTxRawEmitsSevenBytes :=
  ⟨wordsOf 0x29, fun s status => ⟨_, rfl, s.emit_makeAck_effect s.atxSeq status⟩⟩

/-- The aggregate is a success exactly when both paths are (R127). -/
theorem PathStatus.statusByte_agg (p : PathStatus) : statusByte p.agg = if p = ⟨true, true⟩ then 1 else 0 := by
  obtain ⟨ok0, ok1⟩ := p
  simp [statusByte, PathStatus.agg]

theorem exec_ackTxFrame_of_valid {s : State} (h : s.frx.valid = true) :
    exec .ackTxFrame s = .next (s.emit .ackOut (makeAck s.cfg s.frx.seq (statusByte s.path.agg))) :=
  congrArg _ (if_neg (by simp [h]))

theorem exec_ackTxMsg_of_done {s : State} (h : s.mrx.done = true) :
    exec .ackTxMsg s = .next (s.emit .ackOut (makeAck s.cfg s.mrx.seq (statusByte s.mrx.nodeOk))) :=
  congrArg _ (if_neg (by simp [h]))

/-- Settles O43: with VALID = 1 the frame is acknowledged with AGG; with VALID = 0 the row of NOFRAME is met. -/
theorem ackTxFrameReportsBothPaths : Obligations.AckTxFrameReportsBothPaths := by
  refine ⟨wordsOf 0x29, fun s => ⟨fun hv => ?_, fun hv => ?_⟩⟩
  · rw [← PathStatus.statusByte_agg]
    exact ⟨_, exec_ackTxFrame_of_valid hv, s.emit_makeAck_effect _ _⟩
  · have hraise : raisedBy s .ackTxFrame = some .noFrame := if_neg (by simp [hv])
    exact ⟨_, exec_of_raisedBy hraise, s.raise_effect _, s.raise_err _⟩

/-- Settles O44: with MDONE = 1 the message is acknowledged with NODE_OK; with MDONE = 0 the row of NOMSG is met. -/
theorem ackTxMsgReportsTheNode : Obligations.AckTxMsgReportsTheNode := by
  refine ⟨wordsOf 0x29, fun s => ⟨fun hd => ?_, fun hd => ?_⟩⟩
  · exact ⟨_, exec_ackTxMsg_of_done hd, s.emit_makeAck_effect _ _⟩
  · have hraise : raisedBy s .ackTxMsg = some .noMsg := if_neg (by simp [hd])
    exact ⟨_, exec_of_raisedBy hraise, s.raise_effect _, s.raise_err _⟩

end Sys2Proof.Machine

/-! ## The end of a wait: `FinishRecordsTheResult` -/

namespace Sys2Proof.Machine

/-- One effect after another. -/
theorem Effect.trans {c d changed : List Reg} {es fs : List Event} {s t u : State} (hst : Effect c es s t)
    (htu : Effect d fs t u) (hc : c ⊆ changed) (hd : d ⊆ changed) : Effect changed (es ++ fs) s u := by
  obtain ⟨hregs, ⟨hpbuf, hmbuf⟩, ⟨hinput, hsink, hresets, hheld⟩, hemits⟩ := hst
  obtain ⟨hregs', ⟨hpbuf', hmbuf'⟩, ⟨hinput', hsink', hresets', hheld'⟩, hemits'⟩ := htu
  exact ⟨fun r hr => (hregs' r (mt (@hd r) hr)).trans (hregs r (mt (@hc r) hr)),
    ⟨hpbuf'.trans hpbuf, hmbuf'.trans hmbuf⟩,
    ⟨hinput'.trans hinput, hsink'.trans hsink, hresets'.trans hresets, hheld'.trans hheld⟩, hemits.trans hemits'⟩

/-- The end of a wait changes AW_STAT and PATH and emits one event. -/
theorem State.finishWait_effect (s : State) (r : WaitResult) (status : Byte) :
    Effect [.awStat, .path] [.ackw s.aw.slot r status] s (s.finishWait r status) := by
  refine ⟨fun reg hreg => ?_, ⟨rfl, rfl⟩, ⟨rfl, rfl, rfl, rfl⟩, rfl⟩
  cases reg
  case awStat | path => exact absurd hreg (by decide)
  all_goals rfl

@[simp] theorem PathStatus.record_ok0 (p : PathStatus) (slot : Slot) (ok : Bool) :
    (p.record slot ok).ok0 = if slot = .slot0 then ok else p.ok0 := by cases slot <;> rfl

@[simp] theorem PathStatus.record_ok1 (p : PathStatus) (slot : Slot) (ok : Bool) :
    (p.record slot ok).ok1 = if slot = .slot1 then ok else p.ok1 := by cases slot <;> rfl

theorem waitOk_iff {r : WaitResult} {status : Byte} : waitOk r status = true ↔ r = .matched ∧ status = 1 := by
  simp [waitOk]

@[simp] theorem waitOk_matched (status : Byte) : waitOk .matched status = decide (status = 1) := rfl

@[simp] theorem waitOk_timeout (status : Byte) : waitOk .timeout status = false := rfl

@[simp] theorem State.finishWait_path (s : State) (r : WaitResult) (status : Byte) :
    (s.finishWait r status).path = s.path.record s.aw.slot (waitOk r status) := rfl

@[simp] theorem State.finishWait_aw (s : State) (r : WaitResult) (status : Byte) :
    (s.finishWait r status).aw = { s.aw with state := r.state, status := status } := rfl

/-- Settles O45: the window keeps all but its state and status, and the path of the slot records whether the result is a
MATCH with status 1. -/
theorem finishRecordsTheResult : Obligations.FinishRecordsTheResult := by
  intro s r status
  obtain ⟨hregs, hbuffers, houtside, hemits⟩ := s.finishWait_effect r status
  refine ⟨hregs, hbuffers, houtside, hemits, by cases r <;> rfl, rfl, rfl, rfl, fun hslot => ?_, fun hslot => ?_,
    fun hslot => ?_⟩
  · simp [hslot, waitOk_iff]
  · simp [hslot, waitOk_iff]
  · simp [hslot, PathStatus.record]

end Sys2Proof.Machine

/-! ## One command of the window: `AwStartArmsAWait`, `AwByteFillsAndChecks` and `AwTickCountsToTheLimit` -/

namespace Sys2Proof.Machine

/-! ### What a command does to the window (R114 to R117) -/

/-- The window of a new wait, before its state is decided (R114). -/
def AckWindow.arm (a : AckWindow) (slot : Slot) (seq limit : Word32) : AckWindow :=
  { a with slot := slot, exp := seq, n := 0, elapsed := 0, limit := limit, status := 0 }

/-- The window with one more byte (R115). -/
def AckWindow.fill (a : AckWindow) (b : Byte) : AckWindow :=
  { a with win := a.win.setIfInBounds a.n.toNat b, n := a.n + 1 }

/-- The window of six bytes after a seventh that does not complete a match (R116). -/
def AckWindow.slide (a : AckWindow) (b : Byte) : AckWindow :=
  { a with win := #v[a.win[1], a.win[2], a.win[3], a.win[4], a.win[5], b, b], n := 6 }

/-- The window with one more tick (R117). -/
def AckWindow.tick (a : AckWindow) : AckWindow := { a with elapsed := a.elapsed + 1 }

/-- The first six bytes of the window are the accepted magic and the expected seq (R116). -/
def AckWindow.Expected (cfg : CfgRegs) (a : AckWindow) : Prop :=
  a.win[0] = cfg.ackMagicRx.extractLsb' 0 8 ∧ a.win[1] = cfg.ackMagicRx.extractLsb' 8 8 ∧
    fromLe [a.win[2], a.win[3], a.win[4], a.win[5]] = a.exp.toNat

theorem windowMatches_iff {cfg : CfgRegs} {a : AckWindow} : windowMatches cfg a = true ↔ a.Expected cfg := by
  simp [windowMatches, AckWindow.Expected, and_assoc]

theorem AckWindow.fill_win (a : AckWindow) (b : Byte) {j : Nat} (hj : j < 7) :
    (a.fill b).win[j] = if j = a.n.toNat then b else a.win[j] := by
  simp only [AckWindow.fill, Vector.getElem_setIfInBounds hj, eq_comm]

/-- The seventh byte is not part of the match (R116). -/
theorem AckWindow.fill_expected_iff {a : AckWindow} (hn : a.n = 6) {cfg : CfgRegs} {b : Byte} :
    (a.fill b).Expected cfg ↔ a.Expected cfg := by
  simp [AckWindow.Expected, AckWindow.fill, hn]

/-- The model's slide of a full window is the slide of the six bytes before the last. -/
theorem slideWindow_fill {a : AckWindow} (hn : a.n = 6) (b : Byte) :
    slideWindow (a.fill b).win = (a.slide b).win := by
  simp [slideWindow, AckWindow.fill, AckWindow.slide, hn]

/-! ### The commands, an equation per case -/

section
variable {s : State} {b : Byte} {slot : Slot} {seq : Word32}

theorem exec_awStart_of_timeout_ne_zero (hw : s.aw.state ≠ .wait) (ht : s.cfg.awTimeout ≠ 0) :
    exec (.awStart slot seq) s =
      .next (s.setAw { s.aw.arm slot seq s.cfg.awTimeout with state := .wait }) :=
  congrArg _ ((if_neg hw).trans (if_neg ht))

theorem exec_awStart_of_timeout_eq_zero (hw : s.aw.state ≠ .wait) (ht : s.cfg.awTimeout = 0) :
    exec (.awStart slot seq) s =
      .next ((s.setAw (s.aw.arm slot seq s.cfg.awTimeout)).finishWait .timeout 0) :=
  congrArg _ ((if_neg hw).trans (if_pos ht))

theorem exec_awByte_of_ne_six (hw : s.aw.state = .wait) (hn : s.aw.n ≠ 6) :
    exec (.awByte b) s = .next (s.setAw (s.aw.fill b)) :=
  congrArg _ ((if_neg (not_not.2 hw)).trans (if_neg (show s.aw.n + 1 ≠ 7 by bv_omega)))

theorem exec_awByte_of_six (hw : s.aw.state = .wait) (hn : s.aw.n = 6) :
    exec (.awByte b) s = .next (s.setAw (s.aw.fill b)).checkWindow :=
  congrArg _ ((if_neg (not_not.2 hw)).trans (if_pos (show s.aw.n + 1 = 7 by rw [hn]; rfl)))

theorem exec_awByte_of_expected (hw : s.aw.state = .wait) (hn : s.aw.n = 6) (he : s.aw.Expected s.cfg) :
    exec (.awByte b) s = .next ((s.setAw (s.aw.fill b)).finishWait .matched b) := by
  have hlast : (s.aw.fill b).win[6] = b := by rw [AckWindow.fill_win, hn]; rfl
  have hmatch : windowMatches s.cfg (s.aw.fill b) = true := windowMatches_iff.2 ((AckWindow.fill_expected_iff hn).2 he)
  rw [exec_awByte_of_six hw hn, State.checkWindow, State.setAw_cfg, State.setAw_aw, if_pos hmatch, hlast]

theorem exec_awByte_of_not_expected (hw : s.aw.state = .wait) (hn : s.aw.n = 6) (he : ¬ s.aw.Expected s.cfg) :
    exec (.awByte b) s = .next (s.setAw (s.aw.slide b)) := by
  have hmatch : ¬ windowMatches s.cfg (s.aw.fill b) = true :=
    fun h => he ((AckWindow.fill_expected_iff hn).1 (windowMatches_iff.1 h))
  rw [exec_awByte_of_six hw hn, State.checkWindow, State.setAw_cfg, State.setAw_aw, if_neg hmatch, slideWindow_fill hn]
  rfl

theorem exec_awTick_of_not_wait (hw : s.aw.state ≠ .wait) : exec .awTick s = .next s := congrArg _ (if_pos hw)

theorem exec_awTick_of_lt (hw : s.aw.state = .wait) (h : s.aw.elapsed + 1 < s.aw.limit) :
    exec .awTick s = .next (s.setAw s.aw.tick) :=
  congrArg _ ((if_neg (not_not.2 hw)).trans (if_neg (BitVec.not_le.2 h)))

theorem exec_awTick_of_le (hw : s.aw.state = .wait) (h : s.aw.limit ≤ s.aw.elapsed + 1) :
    exec .awTick s = .next ((s.setAw s.aw.tick).finishWait .timeout 0) :=
  congrArg _ ((if_neg (not_not.2 hw)).trans (if_pos h))

/-- A tick of a wait below its limit does not wrap. -/
theorem AckWindow.tick_elapsed_toNat {a : AckWindow} (h : a.elapsed.toNat < a.limit.toNat) :
    a.tick.elapsed.toNat = a.elapsed.toNat + 1 := by
  have hlimit := a.limit.isLt
  simp only [AckWindow.tick]
  bv_omega

end

/-! ### The registers they change -/

/-- Replacing the window changes no register but the window's. -/
theorem State.setAw_effect {s : State} {a : AckWindow} {changed : List Reg}
    (h : ∀ r ∈ [Reg.awStat, .awExp, .awElapsed, .awLimit, .awWinLo, .awWinHi], r ∉ changed →
      (s.setAw a).readReg r = s.readReg r) : Effect changed [] s (s.setAw a) := by
  refine ⟨fun r hr => ?_, ⟨rfl, rfl⟩, ⟨rfl, rfl, rfl, rfl⟩, (List.append_nil _).symm⟩
  cases r
  case awStat | awExp | awElapsed | awLimit | awWinLo | awWinHi => exact h _ (by decide) hr
  all_goals rfl

theorem AckWindow.arm_effect (s : State) (slot : Slot) (seq limit : Word32) (state : AwState) :
    Effect [.awStat, .awExp, .awElapsed, .awLimit] [] s
      (s.setAw { s.aw.arm slot seq limit with state := state }) :=
  State.setAw_effect (by simp [State.readReg, AckWindow.arm, awWinLo, awWinHi])

theorem AckWindow.fill_effect (s : State) (b : Byte) :
    Effect [.awStat, .awWinLo, .awWinHi] [] s (s.setAw (s.aw.fill b)) :=
  State.setAw_effect (by simp [State.readReg, AckWindow.fill])

theorem AckWindow.slide_effect (s : State) (b : Byte) :
    Effect [.awStat, .awWinLo, .awWinHi] [] s (s.setAw (s.aw.slide b)) :=
  State.setAw_effect (by simp [State.readReg, AckWindow.slide])

theorem AckWindow.tick_effect (s : State) : Effect [.awElapsed] [] s (s.setAw s.aw.tick) :=
  State.setAw_effect (by simp [State.readReg, AckWindow.tick, awStatWord, awWinLo, awWinHi])

/-- Settles O46: outside a wait the window is armed, and a zero timeout ends the new wait; during one the row of AW_BUSY
is met. -/
theorem awStartArmsAWait : Obligations.AwStartArmsAWait := by
  refine ⟨wordsOf 0x30, fun s slot seq => ⟨fun hw => ?_, fun hw => ?_⟩⟩
  · by_cases ht : s.cfg.awTimeout = 0
    · obtain ⟨hregs, hbuffers, houtside, hemits⟩ :=
        (AckWindow.arm_effect s slot seq s.cfg.awTimeout s.aw.state).trans (State.finishWait_effect _ .timeout 0)
          (changed := [.awStat, .awExp, .awElapsed, .awLimit, .path]) (by decide) (by decide)
      exact ⟨_, exec_awStart_of_timeout_eq_zero hw ht, hbuffers, houtside, rfl, rfl, rfl, rfl, rfl, rfl, rfl,
        fun hne => absurd ht hne,
        fun _ => ⟨rfl, hregs, hemits, PathStatus.record_ok0 _ _ _, PathStatus.record_ok1 _ _ _⟩⟩
    · obtain ⟨hregs, hbuffers, houtside, hemits⟩ := AckWindow.arm_effect s slot seq s.cfg.awTimeout .wait
      exact ⟨_, exec_awStart_of_timeout_ne_zero hw ht, hbuffers, houtside, rfl, rfl, rfl, rfl, rfl, rfl, rfl,
        fun _ => ⟨rfl, hregs, hemits⟩, fun he => absurd he ht⟩
  · have hraise : raisedBy s (.awStart slot seq) = some .awBusy := if_pos hw
    exact ⟨_, exec_of_raisedBy hraise, s.raise_effect _, s.raise_err _⟩

/-- Settles O47: in a wait the byte is one of the first six, or the seventh, which completes a match or slides the window;
outside a wait the row of AW_STRAY is met. -/
theorem awByteFillsAndChecks : Obligations.AwByteFillsAndChecks := by
  refine ⟨wordsOf 0x31, fun s b => ⟨fun hw hrange => ?_, fun hw => ?_⟩⟩
  · by_cases hn : s.aw.n = 6
    · have hsix : s.aw.n.toNat = 6 := by rw [hn]; rfl
      by_cases he : s.aw.Expected s.cfg
      · obtain ⟨hregs, hbuffers, houtside, hemits⟩ := (AckWindow.fill_effect s b).trans
          (State.finishWait_effect _ .matched b) (changed := [.awStat, .awWinLo, .awWinHi, .path]) (by decide)
          (by decide)
        refine ⟨_, exec_awByte_of_expected hw hn he, hbuffers, houtside, fun hlt => absurd hsix hlt.ne,
          fun _ => ⟨fun _ => ⟨rfl, ?_, rfl, rfl, hemits, hregs, fun j hj => ?_, PathStatus.record_ok0 _ _ _,
            PathStatus.record_ok1 _ _ _⟩, fun hne => absurd he hne⟩⟩
        · simp [AckWindow.fill, hn]
        · rw [← hsix]
          exact s.aw.fill_win b hj
      · obtain ⟨hregs, hbuffers, houtside, hemits⟩ := AckWindow.slide_effect s b
        exact ⟨_, exec_awByte_of_not_expected hw hn he, hbuffers, houtside, fun hlt => absurd hsix hlt.ne,
          fun _ => ⟨fun hyes => absurd hyes he, fun _ => ⟨hw, rfl, rfl, rfl, hemits, hregs, rfl⟩⟩⟩
    · obtain ⟨hregs, hbuffers, houtside, hemits⟩ := AckWindow.fill_effect s b
      refine ⟨_, exec_awByte_of_ne_six hw hn, hbuffers, houtside,
        fun _ => ⟨hw, ?_, hemits, hregs, rfl, rfl, fun j hj => s.aw.fill_win b hj⟩,
        fun hsix => absurd (BitVec.eq_of_toNat_eq hsix) hn⟩
      simp only [State.setAw_aw, AckWindow.fill]
      bv_omega
  · have hraise : raisedBy s (.awByte b) = some .awStray := if_neg hw
    exact ⟨_, exec_of_raisedBy hraise, s.raise_effect _, s.raise_err _⟩

/-- Settles O48: in a wait the tick is counted, and the wait ends when the count is the limit. -/
theorem awTickCountsToTheLimit : Obligations.AwTickCountsToTheLimit := by
  refine ⟨wordsOf 0x32, fun s => ⟨fun hw hlt => ?_, exec_awTick_of_not_wait⟩⟩
  have hcount : s.aw.tick.elapsed.toNat = s.aw.elapsed.toNat + 1 := AckWindow.tick_elapsed_toNat hlt
  by_cases hend : s.aw.elapsed.toNat + 1 = s.aw.limit.toNat
  · obtain ⟨hregs, hbuffers, houtside, hemits⟩ := (AckWindow.tick_effect s).trans
      (State.finishWait_effect _ .timeout 0) (changed := [.awElapsed, .awStat, .path]) (by decide) (by decide)
    exact ⟨_, exec_awTick_of_le hw (BitVec.le_def.2 (hcount.trans hend).ge), hbuffers, houtside, hcount, rfl, rfl,
      fun hbelow => absurd hend hbelow.ne,
      fun _ => ⟨rfl, rfl, hregs, hemits, PathStatus.record_ok0 _ _ _, PathStatus.record_ok1 _ _ _⟩⟩
  · obtain ⟨hregs, hbuffers, houtside, hemits⟩ := AckWindow.tick_effect s
    have hbelow : s.aw.tick.elapsed.toNat < s.aw.limit.toNat := by omega
    exact ⟨_, exec_awTick_of_lt hw (BitVec.lt_def.2 hbelow), hbuffers, houtside, hcount, rfl, rfl,
      fun _ => ⟨hw, rfl, hregs, hemits⟩, fun he => absurd he hend⟩

end Sys2Proof.Machine

/-! ## Runs of the window: `EmptyStreamTimesOutOnTheLimitthTick` and `StrayLeadingByteIsSkipped` -/

namespace Sys2Proof.Machine

/-- The two windows are of the same wait: state, seq, limit and slot. -/
structure AckWindow.SameWait (a a' : AckWindow) : Prop where
  state : a'.state = a.state
  exp   : a'.exp = a.exp
  limit : a'.limit = a.limit
  slot  : a'.slot = a.slot

theorem AckWindow.SameWait.refl (a : AckWindow) : a.SameWait a := ⟨rfl, rfl, rfl, rfl⟩

theorem AckWindow.SameWait.trans {a a' a'' : AckWindow} (h : a.SameWait a') (h' : a'.SameWait a'') : a.SameWait a'' :=
  ⟨h'.state.trans h.state, h'.exp.trans h.exp, h'.limit.trans h.limit, h'.slot.trans h.slot⟩

theorem AckWindow.fill_sameWait (a : AckWindow) (b : Byte) : a.SameWait (a.fill b) := ⟨rfl, rfl, rfl, rfl⟩

theorem AckWindow.slide_sameWait (a : AckWindow) (b : Byte) : a.SameWait (a.slide b) := ⟨rfl, rfl, rfl, rfl⟩

theorem AckWindow.tick_sameWait (a : AckWindow) : a.SameWait a.tick := ⟨rfl, rfl, rfl, rfl⟩

/-! ### Ticks only (R117, R121) -/

/-- In a wait below its limit, n more ticks are counted, and the wait ends on the tick that reaches the limit. -/
theorem execAll_ticks {n : Nat} {s : State} (hw : s.aw.state = .wait) (hlt : s.aw.elapsed.toNat < s.aw.limit.toNat)
    (hn : s.aw.elapsed.toNat + n ≤ s.aw.limit.toNat) :
    ∃ t, execAll (ticks n) s = .next t ∧ t.aw.elapsed.toNat = s.aw.elapsed.toNat + n ∧
      (s.aw.elapsed.toNat + n < s.aw.limit.toNat → t.aw.state = .wait ∧ Emits [] s t) ∧
      (s.aw.elapsed.toNat + n = s.aw.limit.toNat →
        t.aw.state = .timeout ∧ Emits [.ackw s.aw.slot .timeout 0] s t) := by
  induction n generalizing s with
  | zero => exact ⟨s, rfl, rfl, fun _ => ⟨hw, (List.append_nil _).symm⟩, fun he => absurd he hlt.ne⟩
  | succ n ih =>
    have hcount : s.aw.tick.elapsed.toNat = s.aw.elapsed.toNat + 1 := AckWindow.tick_elapsed_toNat hlt
    by_cases hend : s.aw.elapsed.toNat + 1 = s.aw.limit.toNat
    · obtain rfl : n = 0 := by omega
      have htick := exec_awTick_of_le hw (BitVec.le_def.2 (hcount.trans hend).ge)
      exact ⟨_, execAll_cons_of_next htick, hcount, fun hbelow => absurd hend hbelow.ne, fun _ => ⟨rfl, rfl⟩⟩
    · have hbelow : s.aw.tick.elapsed.toNat < s.aw.limit.toNat := by omega
      have htick := exec_awTick_of_lt hw (BitVec.lt_def.2 hbelow)
      have hsum : s.aw.tick.elapsed.toNat + n = s.aw.elapsed.toNat + (n + 1) := by omega
      obtain ⟨t, ht, hrun⟩ := ih (s := s.setAw s.aw.tick) hw hbelow (hsum.trans_le hn)
      rw [State.setAw_aw, hsum] at hrun
      exact ⟨t, (execAll_cons_of_next htick).trans ht, hrun⟩

/-- Settles O49: `AW_START` arms a wait that has counted no tick, below the limit it latched. -/
theorem emptyStreamTimesOutOnTheLimitthTick : Obligations.EmptyStreamTimesOutOnTheLimitthTick := by
  intro s slot seq n hw ht hn
  have hpos : 0 < s.cfg.awTimeout.toNat := by bv_omega
  obtain ⟨t, hrun, hcount⟩ := execAll_ticks (n := n)
    (s := s.setAw { s.aw.arm slot seq s.cfg.awTimeout with state := .wait }) rfl hpos ((Nat.zero_add n).trans_le hn)
  have hzero : (0 : Word32).toNat + n = n := Nat.zero_add n
  simp only [State.setAw_aw, AckWindow.arm, hzero] at hcount
  exact ⟨t, (execAll_cons_of_next (exec_awStart_of_timeout_ne_zero hw ht)).trans hrun, hcount⟩

/-! ### The bytes the window holds (R115, R116) -/

/-- Lists of bytes of one length that spell the same number are the same. -/
theorem eq_of_fromLe_eq {xs ys : List Byte} (hlen : xs.length = ys.length) (h : fromLe xs = fromLe ys) : xs = ys := by
  induction xs generalizing ys with
  | nil => exact (List.length_eq_zero_iff.1 hlen.symm).symm
  | cons x xs ih =>
    obtain _ | ⟨y, ys⟩ := ys
    · cases hlen
    · simp only [fromLe] at h
      have hx := x.isLt
      have hy := y.isLt
      rw [BitVec.eq_of_toNat_eq (show x.toNat = y.toNat by omega), ih (Nat.succ.inj hlen) (by omega)]

/-- The six bytes of an acknowledgement before its status (R63). -/
def ackHeader (magic : Word16) (seq : Word32) : List Byte := leBytes 2 magic ++ leBytes 4 seq

/-- The window's first bytes, up to AW_N, are these. -/
def AckWindow.Holds (bs : List Byte) (a : AckWindow) : Prop := a.n.toNat = bs.length ∧ a.win.toList.take bs.length = bs

theorem AckWindow.holds_nil {a : AckWindow} (h : a.n = 0) : a.Holds [] := ⟨by rw [h]; rfl, rfl⟩

theorem AckWindow.Holds.fill {bs : List Byte} {a : AckWindow} (h : a.Holds bs) (hn : bs.length ≤ 6) (b : Byte) :
    (a.fill b).Holds (bs ++ [b]) := by
  obtain ⟨hcnt, hheld⟩ := h
  refine ⟨?_, ?_⟩
  · rw [List.length_append, List.length_singleton]
    simp only [AckWindow.fill]
    bv_omega
  · have hlen : bs.length < a.win.toList.length := by rw [Vector.length_toList]; omega
    simp only [AckWindow.fill, hcnt, Vector.toList_setIfInBounds, List.length_append, List.length_singleton]
    rw [take_succ_set hlen, hheld]

theorem AckWindow.take_six (a : AckWindow) :
    a.win.toList.take 6 = [a.win[0], a.win[1], a.win[2], a.win[3], a.win[4], a.win[5]] := by
  refine List.ext_getElem (by simp) fun j hj _ => ?_
  have hsix : j < 6 := hj.trans_le (List.length_take_le 6 a.win.toList)
  rw [List.getElem_take, Vector.getElem_toList]
  interval_cases j <;> rfl

theorem AckWindow.expected_iff {cfg : CfgRegs} {a : AckWindow} :
    a.Expected cfg ↔ a.win.toList.take 6 = ackHeader cfg.ackMagicRx a.exp := by
  have hexp : fromLe (leBytes 4 a.exp) = a.exp.toNat := by
    rw [fromLe_leBytes]
    exact Nat.mod_eq_of_lt a.exp.isLt
  rw [AckWindow.take_six, AckWindow.Expected, ← hexp, ackHeader, leBytes_two]
  constructor
  · rintro ⟨h0, h1, hseq⟩
    have hbytes : [a.win[2], a.win[3], a.win[4], a.win[5]] = leBytes 4 a.exp := eq_of_fromLe_eq rfl hseq
    rw [h0, h1, hbytes]
    rfl
  · intro h
    injection h with h0 h
    injection h with h1 h
    exact ⟨h0, h1, congrArg fromLe h⟩

/-- A window that holds six bytes is a match exactly when they are the header. -/
theorem AckWindow.Holds.expected_iff {bs : List Byte} {a : AckWindow} (h : a.Holds bs) (hn : bs.length = 6)
    {cfg : CfgRegs} : a.Expected cfg ↔ bs = ackHeader cfg.ackMagicRx a.exp := by
  rw [AckWindow.expected_iff, ← hn, h.2]

/-- A byte that slides six bytes drops the oldest of them. -/
theorem AckWindow.Holds.slide {x : Byte} {bs : List Byte} {a : AckWindow} (h : a.Holds (x :: bs)) (hn : bs.length = 5)
    (b : Byte) : (a.slide b).Holds (bs ++ [b]) := by
  obtain ⟨-, hheld⟩ := h
  rw [List.length_cons, hn, AckWindow.take_six] at hheld
  injection hheld with _ htail
  rw [← htail]
  exact ⟨rfl, rfl⟩

/-- Bytes that leave the window short of seven are taken in order, and the wait goes on. -/
theorem execAll_awBytes_fill {pre bs : List Byte} {s : State} (hw : s.aw.state = .wait) (hp : s.aw.Holds pre)
    (hn : pre.length + bs.length ≤ 6) :
    ∃ a, execAll (awBytes bs) s = .next (s.setAw a) ∧ s.aw.SameWait a ∧ a.Holds (pre ++ bs) := by
  induction bs generalizing pre s with
  | nil => exact ⟨s.aw, rfl, .refl _, by rwa [List.append_nil]⟩
  | cons b bs ih =>
    rw [List.length_cons] at hn
    have hne : s.aw.n ≠ 6 := by
      have hcnt := hp.1
      bv_omega
    obtain ⟨a, ha, hsame, hheld⟩ := ih (s := s.setAw (s.aw.fill b)) hw (hp.fill (by omega) b)
      (by rw [List.length_append, List.length_singleton]; omega)
    refine ⟨a, (execAll_cons_of_next (exec_awByte_of_ne_six hw hne)).trans ha, (s.aw.fill_sameWait b).trans hsame, ?_⟩
    rwa [List.append_assoc] at hheld

/-- Settles O50: the stray byte and the first five fill the window, the sixth slides the stray byte out, and the status
completes the match. -/
theorem strayLeadingByteIsSkipped : Obligations.StrayLeadingByteIsSkipped := by
  intro s x status hw hn hstray
  obtain ⟨a, hfill, hsame, hheld⟩ := execAll_awBytes_fill
    (bs := x :: (ackHeader s.cfg.ackMagicRx s.aw.exp).take 5) hw (AckWindow.holds_nil hn) (Nat.le_refl 6)
  have hwait : a.state = .wait := hsame.state.trans hw
  have hmiss : ¬ a.Expected s.cfg := by
    rw [hheld.expected_iff rfl, hsame.exp]
    exact hstray
  have hslide := exec_awByte_of_not_expected (s := s.setAw a) (b := s.aw.exp.extractLsb' 24 8) hwait
    (BitVec.eq_of_toNat_eq hheld.1) hmiss
  have hheld' := hheld.slide rfl (s.aw.exp.extractLsb' 24 8)
  have hmatch := exec_awByte_of_expected (s := s.setAw (a.slide (s.aw.exp.extractLsb' 24 8))) (b := status) hwait rfl
    ((hheld'.expected_iff rfl).2 (by rw [(a.slide_sameWait _).exp, hsame.exp]; rfl))
  refine ⟨_, (execAll_append_of_next hfill).trans
    ((execAll_cons_of_next hslide).trans (execAll_cons_of_next hmatch)), rfl, rfl, rfl, rfl, ?_⟩
  rw [← hsame.slot]
  rfl

end Sys2Proof.Machine

/-! ## How a wait ends: `WaitEndsOnlyByMatchOrTimeout` and `PathSucceedsOnlyByAcceptedAck` -/

namespace Sys2Proof.Machine

section
variable {i : Instr} {s t : State}

/-- `AW_BYTE` leaves the wait and the path flags, or ends the wait in a match. -/
theorem exec_awByte_cases {b : Byte} (h : exec (.awByte b) s = .next t) :
    (s.aw.SameWait t.aw ∧ t.path = s.path) ∨
    (s.aw.state = .wait ∧ s.aw.n = 6 ∧ s.aw.Expected s.cfg ∧ t = (s.setAw (s.aw.fill b)).finishWait .matched b) := by
  by_cases hw : s.aw.state = .wait
  · by_cases hn : s.aw.n = 6
    · by_cases he : s.aw.Expected s.cfg
      · rw [exec_awByte_of_expected hw hn he] at h
        exact .inr ⟨hw, hn, he, (Host.Outcome.next.inj h).symm⟩
      · rw [exec_awByte_of_not_expected hw hn he] at h
        obtain rfl := Host.Outcome.next.inj h
        exact .inl ⟨s.aw.slide_sameWait b, rfl⟩
    · rw [exec_awByte_of_ne_six hw hn] at h
      obtain rfl := Host.Outcome.next.inj h
      exact .inl ⟨s.aw.fill_sameWait b, rfl⟩
  · have hraise : raisedBy s (.awByte b) = some .awStray := if_neg hw
    rw [exec_of_raisedBy hraise] at h
    obtain rfl := Host.Outcome.next.inj h
    exact .inl ⟨.refl _, rfl⟩

/-- `AW_TICK` leaves the wait and the path flags, or ends the wait in a timeout. -/
theorem exec_awTick_cases (h : exec .awTick s = .next t) :
    (s.aw.SameWait t.aw ∧ t.path = s.path) ∨
    (s.aw.limit ≤ s.aw.elapsed + 1 ∧ t = (s.setAw s.aw.tick).finishWait .timeout 0) := by
  by_cases hw : s.aw.state = .wait
  · by_cases hle : s.aw.limit ≤ s.aw.elapsed + 1
    · rw [exec_awTick_of_le hw hle] at h
      exact .inr ⟨hle, (Host.Outcome.next.inj h).symm⟩
    · rw [exec_awTick_of_lt hw (BitVec.not_le.1 hle)] at h
      obtain rfl := Host.Outcome.next.inj h
      exact .inl ⟨s.aw.tick_sameWait, rfl⟩
  · rw [exec_awTick_of_not_wait hw] at h
    obtain rfl := Host.Outcome.next.inj h
    exact .inl ⟨.refl _, rfl⟩

/-- `AW_START` leaves the path flags, or fails the path of its slot. -/
theorem exec_awStart_path {slot : Slot} {seq : Word32} (h : exec (.awStart slot seq) s = .next t) :
    t.path = s.path ∨ t.path = s.path.record slot false := by
  obtain rfl := Host.Outcome.next.inj h
  split
  · exact .inl rfl
  · split
    · exact .inr rfl
    · exact .inl rfl

/-- In a wait a command goes on with it, or is the byte that completes a match, or is the tick that reaches the limit. -/
theorem exec_cases_of_wait (hw : s.aw.state = .wait) (h : exec i s = .next t) :
    s.aw.SameWait t.aw ∨
    (∃ b, i = .awByte b ∧ s.aw.n = 6 ∧ s.aw.Expected s.cfg ∧ t = (s.setAw (s.aw.fill b)).finishWait .matched b) ∨
    (i = .awTick ∧ s.aw.limit ≤ s.aw.elapsed + 1 ∧ t = (s.setAw s.aw.tick).finishWait .timeout 0) := by
  cases i
  case awStart slot seq =>
    have hraise : raisedBy s (.awStart slot seq) = some .awBusy := if_pos hw
    rw [exec_of_raisedBy hraise] at h
    obtain rfl := Host.Outcome.next.inj h
    exact .inl (.refl _)
  case awByte b =>
    obtain ⟨hsame, -⟩ | ⟨-, hn, he, ht⟩ := exec_awByte_cases h
    · exact .inl hsame
    · exact .inr (.inl ⟨b, rfl, hn, he, ht⟩)
  case awTick =>
    obtain ⟨hsame, -⟩ | hend := exec_awTick_cases h
    · exact .inl hsame
    · exact .inr (.inr ⟨rfl, hend⟩)
  all_goals
    have haw : t.aw = s.aw := exec_kept (p := .aw) h (by simp [writtenParts])
    rw [haw]
    exact .inl (.refl _)

/-- A command leaves the path flags, clears both, fails one path, or records the status of a match in the slot of the
wait that it ends (R93, R113, R127). -/
theorem exec_path_cases (h : exec i s = .next t) :
    t.path = s.path ∨ t.path = ⟨false, false⟩ ∨ (∃ slot, t.path = s.path.record slot false) ∨
    (s.aw.state = .wait ∧ t.aw.state = .matched ∧ t.path = s.path.record s.aw.slot (decide (t.aw.status = 1))) := by
  cases i
  case frxByte b =>
    rw [exec_frxByte_path h]
    split
    · exact .inr (.inl rfl)
    · exact .inl rfl
  case awStart slot seq =>
    exact (exec_awStart_path h).imp id fun hfail => .inr (.inl ⟨slot, hfail⟩)
  case awByte b =>
    obtain ⟨-, hpath⟩ | ⟨hw, -, -, rfl⟩ := exec_awByte_cases h
    · exact .inl hpath
    · exact .inr (.inr (.inr ⟨hw, rfl, rfl⟩))
  case awTick =>
    obtain ⟨-, hpath⟩ | ⟨-, rfl⟩ := exec_awTick_cases h
    · exact .inl hpath
    · exact .inr (.inr (.inl ⟨s.aw.slot, rfl⟩))
  all_goals exact .inl (exec_kept (p := .path) h (by simp [writtenParts]))

end

/-- Settles O25: a step that takes no command leaves the window or resets it, and a command goes on with the wait or ends
it by a match or at the limit. -/
theorem waitEndsOnlyByMatchOrTimeout : Obligations.WaitEndsOnlyByMatchOrTimeout := by
  intro s t hw h
  obtain rfl | ⟨pre, rest, -, hh, hi, rfl⟩ | ⟨-, cw, rest, hi, ⟨-, rfl⟩ | ⟨i, hd, hx⟩⟩ := step_cases h
  · exact .inl ⟨hw, rfl, rfl, rfl⟩
  · refine .inr (.inr ⟨?_, rfl, (List.append_nil _).symm⟩)
    obtain hheld | rfl := hh
    · exact .inr ⟨hheld, by simp [hi]⟩
    · exact .inl (by simp [hi])
  · exact .inl ⟨hw, rfl, rfl, rfl⟩
  · obtain hsame | ⟨b, rfl, hn, he, rfl⟩ | ⟨rfl, hle, rfl⟩ := exec_cases_of_wait (s := s.setInput rest) hw hx
    · exact .inl ⟨hsame.state.trans hw, hsame.exp, hsame.limit, hsame.slot⟩
    · obtain ⟨hlow, hhigh, hseq⟩ := (AckWindow.fill_expected_iff (b := b) hn).2 he
      exact .inr (.inl ⟨cw, rest, hi, .inl ⟨rfl, b, hd, hn, hlow, hhigh, hseq, rfl⟩⟩)
    · exact .inr (.inl ⟨cw, rest, hi, .inr ⟨rfl, hd, hle, rfl⟩⟩)

theorem right_or_left_of_ite_eq_true {c : Prop} [Decidable c] {a b : Bool} (h : (if c then a else b) = true) :
    b = true ∨ (c ∧ a = true) := by
  split at h
  · next hc => exact .inr ⟨hc, h⟩
  · exact .inl h

/-- Settles O26: of the ways a command changes the path flags, only a recorded match sets one. -/
theorem pathSucceedsOnlyByAcceptedAck : Obligations.PathSucceedsOnlyByAcceptedAck := by
  intro i s t h
  obtain hp | hp | ⟨slot, hp⟩ | ⟨hw, hm, hp⟩ := exec_path_cases h
  · rw [hp]
    exact ⟨.inl, .inl⟩
  · rw [hp]
    exact ⟨nofun, nofun⟩
  · rw [hp, PathStatus.record_ok0, PathStatus.record_ok1]
    have hfail : ∀ {c : Prop}, ¬ (c ∧ false = true) := fun hc => Bool.false_ne_true hc.2
    exact ⟨fun h0 => .inl ((right_or_left_of_ite_eq_true h0).resolve_right hfail),
      fun h1 => .inl ((right_or_left_of_ite_eq_true h1).resolve_right hfail)⟩
  · rw [hp, PathStatus.record_ok0, PathStatus.record_ok1]
    have haccepted : ∀ {c : Prop}, c ∧ decide (t.aw.status = 1) = true →
        s.aw.state = .wait ∧ c ∧ t.aw.state = .matched ∧ t.aw.status = 1 :=
      fun hc => ⟨hw, hc.1, hm, of_decide_eq_true hc.2⟩
    exact ⟨fun h0 => (right_or_left_of_ite_eq_true h0).imp id haccepted,
      fun h1 => (right_or_left_of_ite_eq_true h1).imp id haccepted⟩

end Sys2Proof.Machine

/-! ## Relay: `MsgTxSendsOneHalf` -/

namespace Sys2Proof.Machine

/-- With a valid frame `MSG_TX` emits the relay message of the half on its port. -/
theorem exec_msgTx_of_valid {s : State} (hv : s.frx.valid = true) (h : Half) :
    exec (.msgTx h) s = .next (s.emit (halfPort h) (relayMessage s.frx h)) :=
  congrArg _ (if_neg (by simp [hv]))

theorem leBytes_getElem? {w n k : Nat} (v : BitVec w) (hk : k < n) :
    (leBytes n v)[k]? = some (v.extractLsb' (8 * k) 8) := by
  simp [leBytes, hk]

@[simp] theorem halfSlice_length (h : Half) (pbuf : Bytes 512) : (halfSlice h pbuf).length = 256 := by
  cases h <;> simp [halfSlice, halfOffset]

/-- Byte k of a half is the payload byte k places after the half's first. -/
theorem halfSlice_getElem? {k : Nat} (h : Half) (pbuf : Bytes 512) (hk : k < 256) :
    (halfSlice h pbuf)[k]? = pbuf[halfOffset h + k]? := by
  rw [halfSlice, List.getElem?_take_of_lt hk, List.getElem?_drop, Vector.getElem?_toList]

theorem relayMessage_length (f : FrameRx) (h : Half) : (relayMessage f h).length = 260 := by simp [relayMessage]

/-- The relay message begins with the four bytes of the seq, low byte first (R62). -/
theorem relayMessage_getElem?_seq {k : Nat} (f : FrameRx) (h : Half) (hk : k < 4) :
    (relayMessage f h)[k]? = some (f.seq.extractLsb' (8 * k) 8) := by
  rw [relayMessage, List.getElem?_append_left (by simpa using hk), leBytes_getElem? f.seq hk]

/-- The half of the payload follows the seq (R62). -/
theorem relayMessage_getElem?_payload {k : Nat} (f : FrameRx) (h : Half) (hk : k < 256) :
    (relayMessage f h)[4 + k]? = f.pbuf[halfOffset h + k]? := by
  rw [relayMessage, List.getElem?_append_right (by simp), leBytes_length, Nat.add_sub_cancel_left,
    halfSlice_getElem? h f.pbuf hk]

/-- Settles O51: with VALID = 1 the relay message leaves, its seq before its half; with VALID = 0 the row of NOFRAME is
met. -/
theorem msgTxSendsOneHalf : Obligations.MsgTxSendsOneHalf := by
  refine ⟨wordsOf 0x20, fun s h => ⟨fun hv => ?_, fun hv => ?_⟩⟩
  · exact ⟨_, relayMessage s.frx h, exec_msgTx_of_valid hv h, s.emit_effect _ _, relayMessage_length s.frx h,
      fun _ => relayMessage_getElem?_seq s.frx h, fun _ => relayMessage_getElem?_payload s.frx h⟩
  · have hraise : raisedBy s (.msgTx h) = some .noFrame := if_neg (by simp [hv])
    exact ⟨_, exec_of_raisedBy hraise, s.raise_effect _, s.raise_err _⟩

end Sys2Proof.Machine

/-! ## The mapper: `MapAnswersDutyAndRoute`, `MessageWritesFollowTheRouting` and `SinkExpansionIsFourBytes` -/

namespace Sys2Proof.Machine

/-! ### The duties and the route of a magnet (R132, R133, R135) -/

/-- Below 7 the right channel is driven (R132). -/
theorem mapDuty_of_lt {v : BitVec 4} (h : v.toNat < 7) : mapDuty v = (0, BitVec.ofNat 12 (585 * (7 - v.toNat))) := by
  have h15 : v ≠ 15 := by bv_omega
  have habs : ((v.toNat : Int) - 7).natAbs = 7 - v.toNat := by omega
  rw [mapDuty, if_neg h15, ← habs]
  exact (if_neg (by omega)).trans (if_pos (by omega))

/-- Above 7 the left channel is driven, but for the value 15 (R132). -/
theorem mapDuty_of_gt {v : BitVec 4} (h : 7 < v.toNat) (h15 : v.toNat < 15) :
    mapDuty v = (BitVec.ofNat 12 (585 * (v.toNat - 7)), 0) := by
  have hne : v ≠ 15 := by bv_omega
  have habs : ((v.toNat : Int) - 7).natAbs = v.toNat - 7 := by omega
  rw [mapDuty, if_neg hne, ← habs]
  exact if_pos (by omega)

/-- The duties of a magnet value are R132's floor formula, since 4095 is 7 times 585. -/
theorem mapDuty_toNat (v : BitVec 4) : (mapDuty v).1.toNat = leftDuty v ∧ (mapDuty v).2.toNat = rightDuty v := by
  have hv := v.isLt
  obtain h | h | h : v.toNat < 7 ∨ (7 < v.toNat ∧ v.toNat < 15) ∨ v.toNat = 7 ∨ v.toNat = 15 := by omega
  · rw [mapDuty_of_lt h, leftDuty, rightDuty, if_pos h, if_neg (by omega)]
    refine ⟨rfl, ?_⟩
    rw [BitVec.toNat_ofNat]
    omega
  · rw [mapDuty_of_gt h.1 h.2, leftDuty, rightDuty, if_pos h, if_neg (by omega)]
    refine ⟨?_, rfl⟩
    rw [BitVec.toNat_ofNat]
    omega
  · obtain rfl | rfl : v = 7 ∨ v = 15 := h.imp BitVec.eq_of_toNat_eq BitVec.eq_of_toNat_eq
    · exact ⟨rfl, rfl⟩
    · exact ⟨rfl, rfl⟩

theorem route_addr_toNat (i : BitVec 9) : (route i).addr.toNat = 0x40 + i.toNat / 8 := by
  have hi := i.isLt
  simp only [route, BitVec.toNat_ofNat]
  omega

theorem route_left_toNat (i : BitVec 9) : (route i).left.toNat = 2 * (i.toNat % 8) := by
  simp only [route, BitVec.toNat_ofNat]
  omega

theorem route_right_toNat (i : BitVec 9) : (route i).right.toNat = 2 * (i.toNat % 8) + 1 := by
  simp only [route, BitVec.toNat_ofNat]
  omega

/-- The fields of a response to `MAP`, each at its place (R135). -/
theorem mapWord_toNat (v : BitVec 4) (g : BitVec 10) : (mapWord v g).toNat =
    leftDuty v + 2 ^ 12 * rightDuty v + 2 ^ 24 * (0x40 + g.toNat % 512 / 8) + 2 ^ 31 * (g.toNat / 512) := by
  have hpacked := ((((Packed.field (mapDuty v).1).or 12 (mapDuty v).2).or 24 (route (localIndex g)).addr).or 31
    (bankOf g)).1
  have hlocal : (localIndex g).toNat = g.toNat % 512 := by simp [localIndex]
  have hbank : (bankOf g).toNat = g.toNat / 512 := by
    have hg := g.isLt
    simp only [bankOf, BitVec.extractLsb'_toNat, Nat.shiftRight_eq_div_pow]
    omega
  rw [mapWord, hpacked, (mapDuty_toNat v).1, (mapDuty_toNat v).2, route_addr_toNat, hlocal, hbank]

/-- Settles O52: the response is the four fields packed, and a response changes nothing. -/
theorem mapAnswersDutyAndRoute : Obligations.MapAnswersDutyAndRoute :=
  ⟨wordsOf 0x48, fun s v g => ⟨_, _, rfl, s.respond_effect _, mapWord_toNat v g⟩⟩

/-! ### The writes of a message in their order (R131, R141, R142) -/

/-- Two entries for each index in turn are a list of twice the length, even places first entries and odd ones second. -/
theorem flatMap_range_pair {α : Type} (f g : Nat → α) (n : Nat) :
    (List.range n).flatMap (fun i => [f i, g i]) =
      (List.range (2 * n)).map (fun k => if k % 2 = 0 then f (k / 2) else g (k / 2)) := by
  induction n with
  | zero => rfl
  | succ n ih =>
    have hodd : (2 * n + 1) / 2 = n := by omega
    simp [List.range_succ, Nat.mul_succ, ih, hodd]

/-- Write k of a message: the left channel of magnet k/2 for an even k, the right one for an odd k. -/
def messageWrite (mbuf : Bytes 256) (k : Nat) : ChannelWrite :=
  let i := BitVec.ofNat 9 (k / 2)
  let d := mapDuty (magnetValue mbuf i)
  if k % 2 = 0 then ⟨(route i).addr, (route i).left, d.1⟩ else ⟨(route i).addr, (route i).right, d.2⟩

theorem messageWrites_eq_map (mbuf : Bytes 256) : messageWrites mbuf = (List.range 1024).map (messageWrite mbuf) :=
  flatMap_range_pair _ _ 512

@[simp] theorem messageWrites_length (mbuf : Bytes 256) : (messageWrites mbuf).length = 1024 := by
  simp [messageWrites_eq_map]

theorem messageWrites_getElem? (mbuf : Bytes 256) {k : Nat} (hk : k < 1024) :
    (messageWrites mbuf)[k]? = some (messageWrite mbuf k) := by
  simp [messageWrites_eq_map, hk]

/-- The value of a magnet is a nibble of its byte, the low one first (R131). -/
theorem magnetValue_toNat (mbuf : Bytes 256) (i : BitVec 9) :
    mbuf[i.toNat / 2]?.map (fun b => b.toNat / 16 ^ (i.toNat % 2) % 16) = some (magnetValue mbuf i).toNat := by
  have hi := i.isLt
  rw [Vector.getElem?_eq_getElem (by omega), Option.map_some, magnetValue]
  split
  · next h => simp [h]
  · next h =>
    have h1 : i.toNat % 2 = 1 := by omega
    simp [h1, Nat.shiftRight_eq_div_pow]

theorem magnetIndex_toNat {k : Nat} (hk : k < 1024) : (BitVec.ofNat 9 (k / 2)).toNat = k / 2 := by
  rw [BitVec.toNat_ofNat]
  omega

/-- Write k goes to channel k of the bank, sixteen channels to a board (R133). -/
theorem messageWrite_route (mbuf : Bytes 256) {k : Nat} (hk : k < 1024) :
    (messageWrite mbuf k).addr.toNat = 0x40 + k / 16 ∧ (messageWrite mbuf k).ch.toNat = k % 16 := by
  have hi := magnetIndex_toNat hk
  unfold messageWrite
  split
  · simp only [route_addr_toNat, route_left_toNat, hi]
    omega
  · simp only [route_addr_toNat, route_right_toNat, hi]
    omega

theorem messageWrite_duty_toNat (mbuf : Bytes 256) (k : Nat) :
    (messageWrite mbuf k).duty.toNat =
      if k % 2 = 0 then leftDuty (magnetValue mbuf (BitVec.ofNat 9 (k / 2)))
      else rightDuty (magnetValue mbuf (BitVec.ofNat 9 (k / 2))) := by
  unfold messageWrite
  split
  · exact (mapDuty_toNat _).1
  · exact (mapDuty_toNat _).2

/-- A magnet value of 15 drives neither channel (R132, R137). -/
theorem messageWrite_duty_of_fifteen {mbuf : Bytes 256} {k : Nat}
    (h : (magnetValue mbuf (BitVec.ofNat 9 (k / 2))).toNat = 15) : (messageWrite mbuf k).duty = 0 := by
  have hv : magnetValue mbuf (BitVec.ofNat 9 (k / 2)) = 15 := BitVec.eq_of_toNat_eq h
  apply BitVec.eq_of_toNat_eq
  rw [messageWrite_duty_toNat, hv]
  exact ite_self 0

/-- Settles O53: write k has the route of channel k and the duty of the nibble of magnet k/2. -/
theorem messageWritesFollowTheRouting : Obligations.MessageWritesFollowTheRouting := by
  refine fun mbuf => ⟨messageWrites_length mbuf, fun k hk => ?_⟩
  obtain ⟨haddr, hch⟩ := messageWrite_route mbuf hk
  have hnibble := magnetValue_toNat mbuf (BitVec.ofNat 9 (k / 2))
  rw [magnetIndex_toNat hk, Nat.div_div_eq_div_mul] at hnibble
  refine ⟨_, _, messageWrites_getElem? mbuf hk, hnibble, haddr, hch, ?_, messageWrite_duty_of_fifteen⟩
  rw [BitVec.ofNat_toNat, BitVec.setWidth_eq]
  exact messageWrite_duty_toNat mbuf k

/-! ### One write on the external sink (R146) -/

/-- Settles O59: the last two bytes are the low byte and the high nibble of the duty. -/
theorem sinkExpansionIsFourBytes : Obligations.SinkExpansionIsFourBytes := by
  refine fun ch duty => ⟨_, _, rfl, ?_⟩
  have hd := duty.isLt
  simp only [BitVec.toNat_setWidth, BitVec.extractLsb'_toNat, Nat.shiftRight_eq_div_pow]
  omega

end Sys2Proof.Machine

/-! ## The bytes of a message: `WritesOnlyAtMessageEnd` and `MrxByteStoresAMessage` -/

namespace Sys2Proof.Machine

/-! ### Which byte drives a board (R139 to R141) -/

/-- Only `MRX_BYTE` emits a write to a board. -/
theorem not_mayEmit_pwm {i : Instr} (hi : ∀ b, i ≠ .mrxByte b) (bus : BitVec 1) (addr : BitVec 7) (ch : BitVec 4)
    (duty : Duty) (reply : SinkReply) : ¬ MayEmit i (.pwm bus addr ch duty reply) := by
  cases i
  case mrxByte b => exact absurd rfl (hi b)
  all_goals simp [MayEmit]

/-- Settles O22: a byte of a message before its last emits nothing, and no other command emits a write. -/
theorem writesOnlyAtMessageEnd : Obligations.WritesOnlyAtMessageEnd := by
  intro i s t h
  by_cases hi : ∃ b, i = .mrxByte b
  · obtain ⟨b, rfl⟩ := hi
    by_cases hk : s.mrx.cnt.toNat = 259
    · exact .inl ⟨b, rfl, BitVec.eq_of_toNat_eq hk⟩
    · obtain rfl := exec_mrxByte_of_ne_last h hk
      exact .inr ⟨[], by simp, by simp⟩
  · obtain ⟨es, he, hes⟩ := exec_emitsOnly h
    exact .inr ⟨es, he, fun bus addr ch duty reply hmem =>
      not_mayEmit_pwm (fun b hb => hi ⟨b, hb⟩) bus addr ch duty reply (hes _ hmem)⟩

/-! ### The bytes of a message before its last (R140) -/

section
variable {b : Byte} {s t : State}

/-- `MRX_BYTE` changes no register but the receiver's. -/
theorem exec_mrxByte_regsKept {changed : List Reg} (h : exec (.mrxByte b) s = .next t)
    (hr : ∀ r ∈ [Reg.mrxCnt, .mstat, .mseq], r ∉ changed → t.readReg r = s.readReg r) : RegsKept changed s t := by
  intro r hc
  cases r
  case mrxCnt | mstat | mseq => exact hr _ (by decide) hc
  all_goals exact exec_readReg h (by simp [partOf, writtenParts])

theorem mrxStore_zero (b : Byte) (m : MsgRx) :
    mrxStore 0 b m = { m with nodeOk := true, done := false, seq := b.setWidth 32 } := rfl

theorem mrxStore_seq (b : Byte) (m : MsgRx) {k : Nat} (hk : 1 ≤ k ∧ k ≤ 3) :
    mrxStore k b m = { m with seq := setByte m.seq k b } := by
  rw [mrxStore, if_neg (by omega), if_pos hk.2]

theorem mrxStore_payload (b : Byte) (m : MsgRx) {k : Nat} (hk : 4 ≤ k) :
    mrxStore k b m = { m with mbuf := m.mbuf.setIfInBounds (k - 4) b } := by
  rw [mrxStore, if_neg (by omega), if_neg (by omega)]

theorem mrxStore_mbuf_of_lt_four (b : Byte) (m : MsgRx) {k : Nat} (hk : k < 4) : (mrxStore k b m).mbuf = m.mbuf := by
  unfold mrxStore
  split_ifs
  · rfl
  · rfl
  · omega

/-- Byte 0 opens a message and begins its seq. -/
theorem exec_mrxByte_first (hk : s.mrx.cnt.toNat = 0) (h : exec (.mrxByte b) s = .next t) :
    RegsKept [.mrxCnt, .mstat, .mseq] s t ∧ t.mrx.nodeOk = true ∧ t.mrx.done = false ∧ t.mrx.seq.toNat = b.toNat := by
  refine ⟨exec_mrxByte_regsKept h fun r hr hc => absurd hr hc, ?_⟩
  obtain rfl := exec_mrxByte_of_ne_last h (by omega)
  rw [hk, mrxStore_zero]
  exact ⟨rfl, rfl, BitVec.toNat_setWidth_of_le (by decide)⟩

/-- Bytes 1 to 3 are bytes of the seq. -/
theorem exec_mrxByte_seq (hk : 1 ≤ s.mrx.cnt.toNat ∧ s.mrx.cnt.toNat ≤ 3) (h : exec (.mrxByte b) s = .next t) :
    RegsKept [.mrxCnt, .mseq] s t ∧ t.mrx.seq = setByte s.mrx.seq s.mrx.cnt.toNat b := by
  have ht := exec_mrxByte_of_ne_last h (by omega)
  rw [mrxStore_seq b s.mrx hk] at ht
  refine ⟨exec_mrxByte_regsKept h ?_, by rw [ht]; rfl⟩
  simp [State.readReg, mstatWord, ht]

/-- Bytes 4 to 258 are payload. -/
theorem exec_mrxByte_payload (hk : 4 ≤ s.mrx.cnt.toNat ∧ s.mrx.cnt.toNat < 259) (h : exec (.mrxByte b) s = .next t) :
    RegsKept [.mrxCnt] s t ∧ t.mrx.mbuf = s.mrx.mbuf.setIfInBounds (s.mrx.cnt.toNat - 4) b := by
  have ht := exec_mrxByte_of_ne_last h (by omega)
  rw [mrxStore_payload b s.mrx hk.1] at ht
  refine ⟨exec_mrxByte_regsKept h ?_, by rw [ht]; rfl⟩
  simp [State.readReg, mstatWord, ht]

end

/-- Settles O54: before the last byte the receiver alone is replaced, and each offset has its equation of what the byte
stores. -/
theorem mrxByteStoresAMessage : Obligations.MrxByteStoresAMessage := by
  refine ⟨wordsOf 0x41, fun s b hlt => ?_⟩
  obtain ⟨t, h⟩ := exec_next (.mrxByte b) s
  have ht := exec_mrxByte_of_ne_last h (by omega)
  refine ⟨t, h, by rw [ht]; rfl, by rw [ht]; exact ⟨rfl, rfl, rfl, rfl⟩, by simp [Emits, ht], ?_, fun hk => ?_,
    fun hk => exec_mrxByte_first hk h, fun hk => ?_, fun hk => ?_⟩
  · rw [ht, State.setMrx_mrx]
    bv_omega
  · rw [ht]
    exact mrxStore_mbuf_of_lt_four b s.mrx hk
  · obtain ⟨hkept, hseq⟩ := exec_mrxByte_seq hk h
    refine ⟨hkept, fun j hj => ?_⟩
    rw [hseq]
    exact extractLsb'_setByte s.mrx.seq _ j b (by omega) (by omega)
  · obtain ⟨hkept, hmbuf⟩ := exec_mrxByte_payload ⟨hk, hlt⟩ h
    refine ⟨hkept, fun j hj => ?_⟩
    simp only [hmbuf, Vector.getElem_setIfInBounds hj, eq_comm]

end Sys2Proof.Machine

/-! ## The last byte of a message: `LastByteAppliesTheMessage`, `SinkStopSkipsAfterTheFirstFailure`,
`UnansweredWriteHoldsTheBlock` and `AllOffMessageDrivesZero` -/

namespace Sys2Proof.Machine

/-! ### The sink after some writes (R144) -/

theorem SinkEnv.replyAt_after (k : SinkEnv) (m n : Nat) : (k.after m).replyAt n = k.replyAt (m + n) := by
  induction m generalizing k with
  | zero => rw [SinkEnv.after_zero, Nat.zero_add]
  | succ m ih => rw [← SinkEnv.after_advance, ih, SinkEnv.replyAt_advance, Nat.add_right_comm]

theorem SinkEnv.advance_after (k : SinkEnv) (m : Nat) : (k.after m).advance = k.after (m + 1) := by
  induction m generalizing k with
  | zero => rw [SinkEnv.after_zero, ← SinkEnv.after_advance, SinkEnv.after_zero]
  | succ m ih => rw [← SinkEnv.after_advance, ih, SinkEnv.after_advance]

/-! ### The events of some writes of a message (R70, R141) -/

theorem messageWrites_take_succ (mbuf : Bytes 256) {m : Nat} (hm : m < 1024) :
    (messageWrites mbuf).take (m + 1) = (messageWrites mbuf).take m ++ [messageWrite mbuf m] := by
  rw [List.take_add_one, messageWrites_getElem? mbuf hm]
  rfl

theorem writeEvents_length (bus : BitVec 1) (mbuf : Bytes 256) (k : SinkEnv) {n : Nat} (hn : n ≤ 1024) :
    (writeEvents bus mbuf k n).length = n := by
  simp [writeEvents, hn]

theorem writeEvents_succ (bus : BitVec 1) (mbuf : Bytes 256) (k : SinkEnv) {m : Nat} (hm : m < 1024) :
    writeEvents bus mbuf k (m + 1) = writeEvents bus mbuf k m ++
      [.pwm bus (messageWrite mbuf m).addr (messageWrite mbuf m).ch (messageWrite mbuf m).duty (k.replyAt m)] := by
  simp [writeEvents, messageWrites_take_succ mbuf hm, hm.le]

/-! ### Issuing the writes of a message one after the other (R141, R144) -/

/-- The state after the first n writes of the message in MBUF, with NODE_OK and the hold flag they leave. -/
def State.afterWrites (s : State) (n : Nat) (ok held : Bool) : State :=
  (((s.setTrace (s.trace ++ writeEvents s.cfg.bank s.mrx.mbuf s.sink n)).setSink (s.sink.after n)).setMrx
    { s.mrx with nodeOk := ok }).setHeld held

section
variable (s : State) (n : Nat) (ok held : Bool)

@[simp] theorem State.afterWrites_cfg : (s.afterWrites n ok held).cfg = s.cfg := rfl
@[simp] theorem State.afterWrites_frx : (s.afterWrites n ok held).frx = s.frx := rfl
@[simp] theorem State.afterWrites_mrx : (s.afterWrites n ok held).mrx = { s.mrx with nodeOk := ok } := rfl
@[simp] theorem State.afterWrites_trace :
    (s.afterWrites n ok held).trace = s.trace ++ writeEvents s.cfg.bank s.mrx.mbuf s.sink n := rfl
@[simp] theorem State.afterWrites_input : (s.afterWrites n ok held).input = s.input := rfl
@[simp] theorem State.afterWrites_sink : (s.afterWrites n ok held).sink = s.sink.after n := rfl
@[simp] theorem State.afterWrites_resets : (s.afterWrites n ok held).resets = s.resets := rfl
@[simp] theorem State.afterWrites_held : (s.afterWrites n ok held).held = held := rfl

end

/-- The first n writes are all answered, and none is skipped: failures do not count, or there are none. -/
structure State.IssuesAll (s : State) (n : Nat) : Prop where
  free     : s.held = false
  answered : ∀ i, i < n → s.sink.replyAt i ≠ .never
  policy   : s.cfg.sinkStop = false ∨ (s.mrx.nodeOk = true ∧ ∀ i, i < n → s.sink.replyAt i = .ok)

/-- NODE_OK after the first n writes: 1 when it was and every write was answered ok (R141). -/
def State.OkAfter (s : State) (n : Nat) (ok : Bool) : Prop :=
  ok = true ↔ s.mrx.nodeOk = true ∧ ∀ i, i < n → s.sink.replyAt i = .ok

/-- Issuing the first n writes of a message. -/
theorem State.issueWrites_take {s : State} {n : Nat} (hn : n ≤ 1024) (h : s.IssuesAll n) :
    ∃ ok, s.OkAfter n ok ∧ ((messageWrites s.mrx.mbuf).take n).foldl State.issueWrite s = s.afterWrites n ok false := by
  have hlen : ((messageWrites s.mrx.mbuf).take n).length = n := by simp [hn]
  obtain ⟨ok, hok, hfold⟩ := State.issueWrites_all ((messageWrites s.mrx.mbuf).take n) s h.free
    (by rw [hlen]; exact h.answered) (by rw [hlen]; exact h.policy)
  rw [hlen] at hok hfold
  refine ⟨ok, hok, ?_⟩
  rw [hfold, ← h.free]
  rfl

/-- Issuing write m after the m writes before it, when it is not skipped. -/
theorem State.issueWrite_afterWrites {s : State} {m : Nat} {ok : Bool} (hm : m < 1024)
    (hp : s.cfg.sinkStop = false ∨ ok = true) :
    (s.afterWrites m ok false).issueWrite (messageWrite s.mrx.mbuf m) =
      s.afterWrites (m + 1) (ok && s.sink.replyAt m != .fail) (s.sink.replyAt m == .never) := by
  have hissue : (s.afterWrites m ok false).issueWrite (messageWrite s.mrx.mbuf m) =
      (s.afterWrites m ok false).pwm (messageWrite s.mrx.mbuf m) := by
    obtain hp | hp := hp <;> simp [State.issueWrite, hp]
  have hreply : (s.sink.after m).reply = s.sink.replyAt m := by rw [SinkEnv.reply_eq, SinkEnv.replyAt_after]; rfl
  rw [hissue, State.pwm_eq]
  simp only [State.afterWrites_sink, hreply, SinkEnv.advance_after]
  simp only [State.afterWrites, writeEvents_succ _ _ _ hm, State.setTrace, State.setSink, State.setMrx, State.setHeld,
    List.append_assoc]

/-- A message whose first m writes are issued goes on with write m and then the rest. -/
theorem State.applyMessage_of_issuesAll {s : State} {m : Nat} (hm : m < 1024) (h : s.IssuesAll m) :
    ∃ ok, s.OkAfter m ok ∧ s.applyMessage = ((messageWrites s.mrx.mbuf).drop (m + 1)).foldl State.issueWrite
      (s.afterWrites (m + 1) (ok && s.sink.replyAt m != .fail) (s.sink.replyAt m == .never)) := by
  obtain ⟨ok, hok, hfold⟩ := State.issueWrites_take hm.le h
  refine ⟨ok, hok, ?_⟩
  have hsplit := List.foldl_append (f := State.issueWrite) (b := s)
    (l := (messageWrites s.mrx.mbuf).take (m + 1)) (l' := (messageWrites s.mrx.mbuf).drop (m + 1))
  rw [List.take_append_drop, messageWrites_take_succ _ hm, List.foldl_append, hfold, List.foldl_cons, List.foldl_nil,
    State.issueWrite_afterWrites hm (h.policy.imp_right hok.2)] at hsplit
  exact hsplit

/-- With SINK_STOP set, write m is the last one issued when it fails (R141). -/
theorem State.applyMessage_of_fail {s : State} {m : Nat} (hm : m < 1024) (h : s.IssuesAll m)
    (hr : s.sink.replyAt m = .fail) (hstop : s.cfg.sinkStop = true) :
    s.applyMessage = s.afterWrites (m + 1) false false := by
  obtain ⟨ok, -, happly⟩ := State.applyMessage_of_issuesAll hm h
  have hnode : (ok && SinkReply.fail != .fail) = false := Bool.and_false ok
  rw [happly, hr, hnode]
  exact State.issueWrites_stopped _ _ hstop rfl

/-- Write m is the last one issued when it is never answered (R144). -/
theorem State.applyMessage_of_never {s : State} {m : Nat} (hm : m < 1024) (h : s.IssuesAll m)
    (hr : s.sink.replyAt m = .never) : ∃ ok, s.OkAfter m ok ∧ s.applyMessage = s.afterWrites (m + 1) ok true := by
  obtain ⟨ok, hok, happly⟩ := State.applyMessage_of_issuesAll hm h
  have hnode : (ok && SinkReply.never != .fail) = ok := Bool.and_true ok
  refine ⟨ok, hok, ?_⟩
  rw [happly, hr, hnode]
  exact State.issueWrites_held _ _ rfl

/-! ### The last byte (R140) -/

/-- The message receiver with the last byte of a message in MBUF. -/
def MsgRx.lastStored (m : MsgRx) (b : Byte) : MsgRx := { m with mbuf := m.mbuf.set 255 b }

section
variable (m : MsgRx) (b : Byte)

@[simp] theorem MsgRx.lastStored_cnt : (m.lastStored b).cnt = m.cnt := rfl
@[simp] theorem MsgRx.lastStored_seq : (m.lastStored b).seq = m.seq := rfl
@[simp] theorem MsgRx.lastStored_mbuf : (m.lastStored b).mbuf = m.mbuf.set 255 b := rfl
@[simp] theorem MsgRx.lastStored_nodeOk : (m.lastStored b).nodeOk = m.nodeOk := rfl
@[simp] theorem MsgRx.lastStored_done : (m.lastStored b).done = m.done := rfl

end

/-- The last byte is stored, and then the message is applied and finished. -/
theorem exec_mrxByte_last {s : State} (hc : s.mrx.cnt = 259) (b : Byte) :
    exec (.mrxByte b) s = .next (s.setMrx (s.mrx.lastStored b)).applyMessage.finishMessage := by
  have hk : s.mrx.cnt.toNat = 259 := congrArg BitVec.toNat hc
  have hset : s.mrx.mbuf.setIfInBounds 255 b = s.mrx.mbuf.set 255 b :=
    Vector.ext fun i hi => (Vector.getElem_setIfInBounds hi).trans (Vector.getElem_set _ hi).symm
  have hstore : s.setMrx (mrxStore s.mrx.cnt.toNat b s.mrx) = s.setMrx (s.mrx.lastStored b) := by
    rw [hk, mrxStore_payload b s.mrx (by decide), hset, MsgRx.lastStored]
  rw [← hstore]
  exact congrArg Host.Outcome.next (if_pos hk)

theorem State.setMrx_lastStored_issuesAll {s : State} {n : Nat} (b : Byte) (hheld : s.held = false)
    (ha : ∀ i, i < n → s.sink.replyAt i ≠ .never)
    (hp : s.cfg.ctrl = 0 ∨ (s.mrx.nodeOk = true ∧ ∀ i, i < n → s.sink.replyAt i = .ok)) :
    (s.setMrx (s.mrx.lastStored b)).IssuesAll n :=
  ⟨hheld, ha, hp.imp_left fun h0 => by simp [CfgRegs.sinkStop, h0]⟩

theorem State.finishMessage_of_held {s : State} (h : s.held = true) : s.finishMessage = s := if_pos h

theorem State.finishMessage_of_not_held {s : State} (h : s.held = false) :
    s.finishMessage = (s.setMrx { s.mrx with done := true, cnt := 0 }).event (.msg s.mrx.nodeOk s.mrx.seq) :=
  if_neg (by simp [h])

/-- When every write the policy asks for is answered, the message is done and its event follows the writes (R140, R143). -/
theorem exec_mrxByte_done {s : State} {b : Byte} {n : Nat} {ok : Bool} (hc : s.mrx.cnt = 259)
    (ha : (s.setMrx (s.mrx.lastStored b)).applyMessage = (s.setMrx (s.mrx.lastStored b)).afterWrites n ok false) :
    ∃ t, exec (.mrxByte b) s = .next t ∧ RegsKept [.mrxCnt, .mstat] s t ∧ t.frx.pbuf = s.frx.pbuf ∧
      t.input = s.input ∧ t.resets = s.resets ∧ t.held = false ∧ t.sink = s.sink.after n ∧
      t.mrx.mbuf = s.mrx.mbuf.set 255 b ∧ t.mrx.cnt = 0 ∧ t.mrx.done = true ∧ t.mrx.nodeOk = ok ∧
      Emits (writeEvents s.cfg.bank t.mrx.mbuf s.sink n ++ [.msg ok s.mrx.seq]) s t := by
  have h := exec_mrxByte_last hc b
  rw [ha, State.finishMessage_of_not_held rfl] at h
  refine ⟨_, h, exec_mrxByte_regsKept h ?_, ?_⟩
  · simp [State.readReg]
  · simp [Emits]

/-- Settles O55: with every write answered and none skipped, all 1024 writes are issued and the message is done. -/
theorem lastByteAppliesTheMessage : Obligations.LastByteAppliesTheMessage := by
  intro s b hheld hc ha hp
  obtain ⟨ok, hok, happly⟩ := State.issueWrites_take le_rfl (State.setMrx_lastStored_issuesAll b hheld ha hp)
  rw [List.take_of_length_le (messageWrites_length _).le] at happly
  obtain ⟨t, hexec, hregs, hpbuf, hinput, hresets, hfree, hsink, hmbuf, hcnt, hdone, rfl, hemits⟩ :=
    exec_mrxByte_done hc happly
  exact ⟨t, hexec, hregs, hpbuf, hinput, hresets, hfree, hsink, hmbuf, hcnt, hdone, hok, hemits⟩

/-- Settles O56: write m makes NODE_OK 0, and with SINK_STOP set no write after it is issued. -/
theorem sinkStopSkipsAfterTheFirstFailure : Obligations.SinkStopSkipsAfterTheFirstFailure := by
  intro s b m hheld hc hctrl hnode hm hall hfail
  have hissues := State.setMrx_lastStored_issuesAll b hheld (fun i hi => by simp [hall i hi]) (.inr ⟨hnode, hall⟩)
  have hstop : s.cfg.sinkStop = true := by simp [CfgRegs.sinkStop, hctrl]
  exact exec_mrxByte_done hc (State.applyMessage_of_fail hm hissues hfail hstop)

/-- Settles O57: write m holds the block, so no write after it is issued and the message is not finished. -/
theorem unansweredWriteHoldsTheBlock : Obligations.UnansweredWriteHoldsTheBlock := by
  intro s b m hheld hc hm ha hnever hp
  obtain ⟨ok, hok, happly⟩ := State.applyMessage_of_never hm (State.setMrx_lastStored_issuesAll b hheld ha hp) hnever
  have h := exec_mrxByte_last hc b
  rw [happly, State.finishMessage_of_held rfl] at h
  have hkept : RegsKept [.mstat] s ((s.setMrx (s.mrx.lastStored b)).afterWrites (m + 1) ok true) :=
    exec_mrxByte_regsKept h (by simp [State.readReg])
  have hnotDone : s.MessageSound → s.mrx.done = false := fun hs => by simpa [hc] using mt hs.done
  have hstays := step_of_held ((s.setMrx (s.mrx.lastStored b)).afterWrites_held (m + 1) ok true)
  rw [State.afterWrites_input, State.setMrx_input] at hstays
  refine ⟨(s.setMrx (s.mrx.lastStored b)).afterWrites (m + 1) ok true, h, hkept, ?_⟩
  simpa [Emits] using ⟨hc, hnotDone, hok, hstays⟩

/-! ### The all-off message (R147) -/

theorem magnetValue_of_allOff {mbuf : Bytes 256} (h : ∀ j (hj : j < 256), mbuf[j] = 0x77) (i : BitVec 9) :
    magnetValue mbuf i = 7 := by
  have hi := i.isLt
  rw [magnetValue, h _ (by omega)]
  exact ite_self _

theorem messageWrites_duty_of_allOff {mbuf : Bytes 256} (h : ∀ j (hj : j < 256), mbuf[j] = 0x77) {w : ChannelWrite}
    (hw : w ∈ messageWrites mbuf) : w.duty = 0 := by
  obtain ⟨i, -, hi⟩ := List.mem_flatMap.1 hw
  rw [magnetWrites, magnetValue_of_allOff h] at hi
  simp only [List.mem_cons, List.not_mem_nil, or_false] at hi
  obtain rfl | rfl := hi <;> rfl

/-- Settles O58: every write of the message is answered, and the value 7 of every nibble drives neither channel. -/
theorem allOffMessageDrivesZero : Obligations.AllOffMessageDrivesZero := by
  intro s hheld hc hctrl hmbuf ha
  obtain ⟨t, hexec, -, -, -, -, -, -, hset, -, -, -, hemits⟩ :=
    lastByteAppliesTheMessage s 0x77 hheld hc ha (.inl hctrl)
  have hoff : ∀ j (hj : j < 256), t.mrx.mbuf[j] = 0x77 := by
    intro j hj
    rw [hset, Vector.getElem_set]
    split
    · rfl
    · next hne => simpa [hj] using hmbuf j (by omega)
  refine ⟨t, _, hexec, writeEvents_length _ _ _ le_rfl, fun e he => ?_, hemits⟩
  obtain ⟨i, hi, rfl⟩ := List.mem_mapIdx.1 he
  exact ⟨_, _, _, by rw [messageWrites_duty_of_allOff hoff (List.mem_of_mem_take (List.getElem_mem hi))]⟩

end Sys2Proof.Machine

/-! ## Exceptions: `RaisingHasNoOtherEffect` and `NoStepStopsTheBlock` -/

namespace Sys2Proof.Machine

/-! ### What raising a flag leaves (R30, R152) -/

/-- Every cause code is a bit of ERR. -/
theorem ErrFlag.code_lt (f : ErrFlag) : f.code < 7 := by cases f <;> decide

/-- Two flags with one cause code are the same flag. -/
theorem ErrFlag.code_inj {f g : ErrFlag} : f.code = g.code ↔ f = g := by
  cases f <;> cases g <;> decide

/-- Setting a flag sets its own bit and leaves the bit of every other flag. -/
theorem errWith_getLsbD (err : BitVec 7) (f g : ErrFlag) :
    (errWith err f).getLsbD g.code = (err.getLsbD g.code || decide (g = f)) := by
  have hbit : (1 <<< f.code : BitVec 7) = BitVec.twoPow 7 f.code := rfl
  rw [errWith, hbit, BitVec.getLsbD_or, BitVec.getLsbD_twoPow]
  simp [f.code_lt, ErrFlag.code_inj, eq_comm]

/-- `raise Err(f)` replaces ERR and nothing else, and in ERR only the bit of `f` changes. -/
theorem State.raise_sets_one_bit (s : State) (f : ErrFlag) :
    s.raise f = s.setErr (s.raise f).err ∧
      ∀ g : ErrFlag, (s.raise f).err.getLsbD g.code = (s.err.getLsbD g.code || decide (g = f)) :=
  ⟨rfl, errWith_getLsbD s.err f⟩

/-- Settles O20: a command that raises a flag ends in `raise` of that flag, and a word that is no legal encoding in
`raise` of ILLEGAL. -/
theorem raisingHasNoOtherEffect : Obligations.RaisingHasNoOtherEffect := by
  refine ⟨fun i s t _ h f hf => ?_,
    fun cw s hl => ⟨s.raise .illegal, runWord_of_not_legal hl s, s.raise_sets_one_bit .illegal⟩⟩
  obtain rfl := Host.Outcome.next.inj ((exec_of_raisedBy hf).symm.trans h)
  exact s.raise_sets_one_bit f

/-! ### Every step answers a next state (R152, R154, R176) -/

/-- Every word answers a next state: as its command does, or by raising ILLEGAL. -/
theorem runWord_next (cw : CmdWord) (s : State) : ∃ t, runWord cw s = .next t := by
  unfold runWord
  split
  · next i _ => exact exec_next i s
  · exact ⟨_, rfl⟩

theorem runInput_next (x : Input) (s : State) : ∃ t, runInput x s = .next t := by
  cases x with
  | command cw => exact runWord_next cw s
  | reset => exact ⟨_, rfl⟩

/-- Settles O8: a step takes a reset, keeps the state, or runs the oldest input. -/
theorem noStepStopsTheBlock : Obligations.NoStepStopsTheBlock := by
  intro s
  unfold step takeInput
  split
  · split
    · exact runInput_next .reset _
    · exact ⟨s, rfl⟩
  · split
    · exact ⟨s, rfl⟩
    · next x rest _ => exact runInput_next x _

end Sys2Proof.Machine
